-- ==== Sys2Proof/Word.lean ====
section
/-! DEFINITION. The plain data words of the TE-8: bytes, 64-byte lines, 32-bit words and ticks, 48-bit addresses. -/

namespace Sys2Proof

/-- One byte of a record or of a transfer unit. -/
abbrev Byte := BitVec 8

/-- A 32-bit value: a register, a CRC, an interrupt data word, a result field. -/
abbrev Word32 := BitVec 32

/-- A value of the 32-bit tick counter (R101); sums and differences wrap modulo 2^32. -/
abbrev Tick := BitVec 32

/-- Sixty-four bytes, byte 0 first: a submission record (Table 11.4), a QUERY or IDENTIFY result
record, or the bytes a read transaction returns. -/
abbrev Line := Vector Byte 64

end Sys2Proof
end

