-- ==== Sys2Proof/Config.lean ====
section
/-! DEFINITION. The constants that the manual fixes for the part: identification (Tables 9.5, 11.1,
11.12), limits (R86, R28, R14), and the default engine parameters (Table 10.4). -/

namespace Sys2Proof.Config

/-- Family code of the ID register and of the capability record (R157, R171). -/
def familyCode : Nat := 0x2A61

/-- Revision of the ID register and of the capability record (R157, R171). -/
def revision : Nat := 0x0103

/-- The ID register: H'2A610103 (Table 11.1). -/
def idRegister : Word32 := 0x2A610103#32

/-- First value above the 48-bit physical address space. -/
def addressLimit : Nat := 2 ^ 48

/-- Transactions outstanding at most (R86). -/
def maxOutstanding : Nat := 16

/-- The size in bytes of a transfer unit (R73) and of a submission record (R1). -/
def unitBytes : Nat := 64

/-- Bytes of a completion record (R1). -/
def completionBytes : Nat := 16

/-- Bytes of each of the lane's two segment buffers (Table 4.1). -/
def bufferBytes : Nat := 512

/-- Largest total length of a NO_PREEMPT command (R28). -/
def noPreemptLimit : Nat := 4096

/-- Segment size after either reset (R76, Table 10.4). -/
def defaultSegmentSize : Nat := 256

/-- Response timeout in ticks after either reset (R88, Table 10.4). -/
def defaultResponseTimeout : Nat := 1000

/-- Tick divider after either reset (R112, Table 10.4). -/
def defaultTickDivider : Nat := 199

/-- Largest value of the saturating 32-bit counts: discarded counts (R21), window counts (R96). -/
def countLimit : Nat := 0xFFFFFFFF

/-- Largest unsignalled count (R127). -/
def unsignalledLimit : Nat := 4095

/-- Largest credit count of a trigger line (R114). -/
def creditLimit : Nat := 255

/-- Largest count of owed fault messages (R170). -/
def owedLimit : Nat := 255

end Sys2Proof.Config
end

