-- ==== Sys2Proof/Syntax.lean ====
section
/-! DEFINITION. The commands of the TE-8: one constructor of `Instr` for each step of the manual's table
of operations and events, and the fields of the records that the commands carry (Tables 2.1, 2.2, 9.1). -/

namespace Sys2Proof

/-- The six transfer operations (Table 11.5). -/
inductive Opcode where
  | copy | copy2d | fill | check | compare | mark
  deriving DecidableEq, Repr

/-- The sixteen administrative commands (Table 11.9). -/
inductive AdminOp where
  | createCr | deleteCr | createSr | deleteSr | setLevel | pauseSr | resumeSr | abortSr
  | resetSr | resetCr | setWindow | clearWindow | setTrigger | setEngine | query | identify
  deriving DecidableEq, Repr

/-- The eight command flags (Table 2.2). -/
structure CmdFlags where
  crc : Bool
  crcSeed : Bool
  chain : Bool
  noPreempt : Bool
  abortOnMiss : Bool
  noSubst : Bool
  noIntr : Bool
  trigWait : Bool
  deriving DecidableEq, Repr

/-- The fields of a transfer record (Table 2.1, positions of Table 11.4). The opcode is kept as its
code, since a record with an unknown one is placed in the head slot as well (R26). Addresses, extents
and budgets are exact natural numbers: the manual adds them without wrap (R27). -/
structure Fields where
  opcode : Byte
  flags : CmdFlags
  tag : BitVec 16
  line : Fin 8
  budget : Nat
  length : Nat
  source : Nat
  destination : Nat
  sourceStride : Nat
  destStride : Nat
  rowLength : Nat
  rows : Nat
  seed : Word32
  pattern : List Byte
  deriving DecidableEq, Repr

/-- The three places in which a watched command may be held (R104). -/
inductive Place where
  | head | active | suspended
  deriving DecidableEq, Repr

/-- The interconnect's answer to a read unit: a success with the returned bytes, of which a unit of n
bytes takes the first n, or an error (R87). -/
inductive ReadAnswer where
  | success (data : Line)
  | error
  deriving DecidableEq, Repr

/-- The commands: one constructor for each row of the table of operations and events. `id` is the
identifier of a memory transaction (R86), `ok` tells a success answer from an error answer. -/
inductive Instr where
  /-- NOTIFY write with KIND 0 (R4); ARM has no effect in it. -/
  | submissionTailUpdate (ring : Fin 16) (index : BitVec 12) (arm : Bool)
  /-- NOTIFY write with KIND 1 (R5, R132). -/
  | completionHeadUpdate (ring : Fin 16) (index : BitVec 12) (arm : Bool)
  /-- DEVCTL write with ENABLE 1, SRESET 0 and the given PAUSE (R158, R159). -/
  | enable (pauseBit : Bool)
  /-- DEVCTL write that leaves ENABLE as stored, with SRESET 0 and the given PAUSE (R160). -/
  | pause (pauseBit : Bool)
  /-- DEVCTL write with SRESET 1, or with ENABLE 0 (R163); all three bits as written. -/
  | softResetRequest (enableBit pauseBit sresetBit : Bool)
  /-- FAULT write with VALID 1 (R169). -/
  | faultClear
  /-- Any write access to the register window: byte offset, width in bytes, value (R171). -/
  | registerWrite (offset : Nat) (width : Nat) (value : Word32)
  /-- Power-on reset (R166). -/
  | powerOnReset
  /-- The Ring Fetch Unit begins an admission on the ring (R8, R9). -/
  | admissionBegin (ring : Fin 16)
  /-- A record fetch is answered with success and these 64 bytes (R10). -/
  | recordFetchSuccess (id : Fin 32) (record : Line)
  /-- A record fetch is answered with an error (R11). -/
  | recordFetchError (id : Fin 32)
  /-- The Memory Port grants one presented request and takes identifier `id` for it (R84, R86). -/
  | memoryGrant (id : Fin 32)
  /-- A read unit of the lane is answered (R74). -/
  | readUnitAnswer (id : Fin 32) (answer : ReadAnswer)
  /-- A write unit of the lane is answered (R75). -/
  | writeUnitAnswer (id : Fin 32) (ok : Bool)
  /-- The Completion Unit presents the ring's oldest outbound record (R18). -/
  | completionWriteIssue (ring : Fin 8)
  /-- A completion record write is acknowledged (R18, R127). -/
  | completionWriteAck (id : Fin 32)
  /-- A completion record write is answered with an error (R19). -/
  | completionWriteError (id : Fin 32)
  /-- The Completion Unit presents the ring's interrupt message (R129). -/
  | messageWriteIssue (ring : Fin 8)
  /-- An interrupt message write is answered with success (R130). -/
  | messageWriteAck (id : Fin 32)
  /-- An interrupt message write is answered with an error (R131). -/
  | messageWriteError (id : Fin 32)
  /-- A QUERY or IDENTIFY result write is answered (R155, R157). -/
  | resultWriteAnswer (id : Fin 32) (ok : Bool)
  /-- Engine Control presents a fault message write (R170). -/
  | faultMessageIssue
  /-- A fault message write is answered (R170). -/
  | faultMessageAnswer (id : Fin 32) (ok : Bool)
  /-- An outstanding transaction reaches the response timeout (R88). -/
  | transactionTimeout (id : Fin 32)
  /-- A response that carries an abandoned identifier arrives (R88). -/
  | lateResponse (id : Fin 32)
  /-- The ENG_CLK period in which the prescaler has reached the tick divider (R101). -/
  | tickAdvance
  /-- The expiry of the watched command of the ring held at the place (R105). -/
  | deadlineExpiry (ring : Fin 16) (place : Place)
  /-- The coalesce timer of the ring reaches the coalesce time (R128). -/
  | coalesceTimerElapse (ring : Fin 8)
  /-- The sample that completes a run of differing samples on the line (R113, R114). -/
  | triggerChangeAccepted (line : Fin 8)
  /-- The SR0 record with an opcode that is not one of the sixteen is taken by the Admin Unit (R138). -/
  | adminUnknown (record : Line)
  | createCr (record : Line)
  | deleteCr (record : Line)
  | createSr (record : Line)
  | deleteSr (record : Line)
  | setLevel (record : Line)
  | pauseSr (record : Line)
  | resumeSr (record : Line)
  | abortSr (record : Line)
  | resetSr (record : Line)
  | resetCr (record : Line)
  | setWindow (record : Line)
  | clearWindow (record : Line)
  | setTrigger (record : Line)
  | setEngine (record : Line)
  | query (record : Line)
  | identify (record : Line)
  /-- One ENG_CLK sample of a trigger input (R113). -/
  | triggerSample (line : Fin 8) (level : Bool)
  /-- The ENG_CLK period in which the prescaler is below the tick divider (R101). -/
  | prescalerCount
  deriving DecidableEq, Repr

end Sys2Proof
end

