-- ==== Sys2Proof/Decode.lean ====
section
/-! DEFINITION. Reading bytes: little-endian fields of a 64-byte record (section 11), the codes of
Tables 11.5 and 11.9, the fields of a transfer record (Table 11.4), the register fields of NOTIFY and
DEVCTL (Table 11.2), and writing bytes of the records the engine sends. The table of operations and
events gives its rows no bits, so `decodeTableWord` answers none. -/

namespace Sys2Proof

/-- The command a table word spells: the table gives no row any bits (every `fields` list is empty). -/
def decodeTableWord (_nbits _w : Nat) : Option Instr := none

/-- The value of bytes in little-endian order: byte 0 is the least significant (section 11). -/
def leValue : List Byte → Nat
  | [] => 0
  | b :: bs => b.toNat + 256 * leValue bs

/-- The n bytes of a value in little-endian order. -/
def leBytes : Nat → Nat → List Byte
  | 0, _ => []
  | n + 1, v => BitVec.ofNat 8 v :: leBytes n (v / 256)

/-- The field of `size` bytes at byte offset `off` of a record. -/
def fieldAt (r : Line) (off size : Nat) : Nat := leValue ((r.toList.drop off).take size)

/-- The byte at offset `off` of a record. -/
def byteAt (r : Line) (off : Nat) : Nat := fieldAt r off 1

/-- The bit `bit` of the little-endian field that starts at byte `off`. -/
def bitAt (r : Line) (off bit : Nat) : Bool := (fieldAt r off 2).testBit bit

/-- A list of bytes as a 64-byte line, filled with zero bytes or cut at 64. -/
def lineOf (l : List Byte) : Line := ⟨⟨(l ++ List.replicate 64 0).take 64⟩, by simp⟩

/-- The bytes of a record given as (offset, size, value) fields in ascending offset order, unassigned
bytes 0 (R173, R175). `at_` is the offset reached so far. -/
def layoutFrom (at_ : Nat) : List (Nat × Nat × Nat) → List Byte
  | [] => []
  | (off, size, v) :: rest =>
    List.replicate (off - at_) 0 ++ leBytes size v ++ layoutFrom (off + size) rest

/-- The 64-byte record with the given fields, every other byte 0 (R175). -/
def layout (fs : List (Nat × Nat × Nat)) : Line := lineOf (layoutFrom 0 fs)

/-- Codes of the transfer operations (Table 11.5). -/
def opcodeOf : Byte → Option Opcode
  | 0x01#8 => some .copy
  | 0x02#8 => some .copy2d
  | 0x03#8 => some .fill
  | 0x04#8 => some .check
  | 0x05#8 => some .compare
  | 0x06#8 => some .mark
  | _ => none

/-- Codes of the administrative commands (Table 11.9). -/
def adminOpOf : Byte → Option AdminOp
  | 0x40#8 => some .createCr
  | 0x41#8 => some .deleteCr
  | 0x42#8 => some .createSr
  | 0x43#8 => some .deleteSr
  | 0x44#8 => some .setLevel
  | 0x45#8 => some .pauseSr
  | 0x46#8 => some .resumeSr
  | 0x47#8 => some .abortSr
  | 0x48#8 => some .resetSr
  | 0x49#8 => some .resetCr
  | 0x4A#8 => some .setWindow
  | 0x4B#8 => some .clearWindow
  | 0x4C#8 => some .setTrigger
  | 0x4D#8 => some .setEngine
  | 0x4E#8 => some .query
  | 0x4F#8 => some .identify
  | _ => none

/-- The administrative command a record names by its byte 0 (Table 11.9). -/
def recordAdminOp (r : Line) : Option AdminOp := adminOpOf (BitVec.ofNat 8 (byteAt r 0))

/-- The eight flags of a transfer record, bits 7:0 at offset 2 (Table 11.4). -/
def decodeFlags (r : Line) : CmdFlags where
  crc := bitAt r 2 0
  crcSeed := bitAt r 2 1
  chain := bitAt r 2 2
  noPreempt := bitAt r 2 3
  abortOnMiss := bitAt r 2 4
  noSubst := bitAt r 2 5
  noIntr := bitAt r 2 6
  trigWait := bitAt r 2 7

/-- The fields of a transfer record at the positions of Table 11.4 (R23, R172). -/
def decodeFields (r : Line) : Fields where
  opcode := BitVec.ofNat 8 (byteAt r 0)
  flags := decodeFlags r
  tag := BitVec.ofNat 16 (fieldAt r 4 2)
  line := ⟨byteAt r 1 % 8, Nat.mod_lt _ (by decide)⟩
  budget := fieldAt r 8 3
  length := fieldAt r 12 4
  source := fieldAt r 16 8
  destination := fieldAt r 24 8
  sourceStride := fieldAt r 32 4
  destStride := fieldAt r 36 4
  rowLength := fieldAt r 40 2
  rows := fieldAt r 42 2
  seed := BitVec.ofNat 32 (fieldAt r 44 4)
  pattern := (r.toList.drop 48).take 8

/-- The tag of an administrative record, which shares the frame of Table 11.4. -/
def recordTag (r : Line) : BitVec 16 := BitVec.ofNat 16 (fieldAt r 4 2)

/-- The command of a NOTIFY write (Table 11.2): INDEX 11:0, RING 19:16, ARM 24, KIND 31; the other bits
are ignored (R171). -/
def decodeNotify (v : Word32) : Instr :=
  let index : BitVec 12 := v.extractLsb' 0 12
  let ring : Fin 16 := (v.extractLsb' 16 4).toFin
  let arm := v.getLsbD 24
  if v.getLsbD 31 then .completionHeadUpdate ring index arm else .submissionTailUpdate ring index arm

/-- ENABLE, PAUSE and SRESET of a DEVCTL write (Table 11.2). -/
def decodeDevctl (v : Word32) : Bool × Bool × Bool := (v.getLsbD 0, v.getLsbD 1, v.getLsbD 2)

/-- A value of n bits below it, cut from a natural number into an index. -/
def finOf (n : Nat) (v : Nat) (h : 0 < n := by decide) : Fin n := ⟨v % n, Nat.mod_lt _ h⟩

end Sys2Proof
end

