-- ==== Sys2Proof/Machine/State.lean ====
section
/-! DEFINITION. The state of the TE-8 as plain data, block by block (Table 2.1), its value after power-on
reset, and the reasons for which a step can stop. -/

namespace Sys2Proof.Machine

/-! ## Submission rings (Table 1.1) -/

/-- States of a submission ring (Table 1.4). -/
inductive SrState where
  | absent | active | paused | aborting | faulted
  deriving DecidableEq, Repr

/-- Chain link: what the next record fetched on the ring will be (2.6). -/
inductive ChainLink where
  | unlinked | linked | broken
  deriving DecidableEq, Repr

/-- Chain carry: whether the ring's chain is open at the dispatch side, with the carried CRC (2.6). -/
inductive ChainCarry where
  | closed
  | opened (crc : Option Word32)
  deriving DecidableEq, Repr

/-- The transfer statuses of Table 8.2 and the administrative statuses of Table 8.4. -/
inductive Status where
  | success | mismatch | invalid | readFault | writeFault | deadlineMissed | aborted | skipped
  | ok | unknown | badField | noRing | ringExists | inUse | wrongState | locked | bufferFault
  deriving DecidableEq, Repr

/-- The reasons of INVALID, in the order of the checks (Table 2.4). -/
inductive Reason where
  | unknownOpcode | reservedSet | flagCombination | triggerOnContinuation
  | zeroLength | stride | addressRange | atomicTooLong
  deriving DecidableEq, Repr

/-- Settlement of a head-slot command: still to execute, or settled with status and result (R10, R26). -/
inductive Settlement where
  | execute (op : Opcode)
  | settled (status : Status) (result : Word32)
  deriving DecidableEq, Repr

/-- A transfer command in a head slot (R10): its fields, chain position, admission tick, settlement and
LATE mark. Its reservation is counted in the bound ring's reserved count. -/
structure HeadCmd where
  fields : Fields
  continuation : Bool
  admitted : Tick
  settlement : Settlement
  late : Bool
  deriving DecidableEq, Repr

/-- The head slot: empty, a transfer command, or (SR0) an administrative record as fetched (R7). -/
inductive Head where
  | empty
  | transfer (cmd : HeadCmd)
  | admin (record : Line) (admitted : Tick)
  deriving DecidableEq, Repr

/-- Submission ring table entry (Table 1.1). `fetchQueued` tells that the fetch of an admission that has
begun is not yet presented to the Memory Port (R85). -/
structure SubRing where
  state : SrState
  base : Nat
  log2 : Nat
  producer : Nat
  consumer : Nat
  bound : Fin 8
  head : Head
  fetchInFlight : Bool
  fetchQueued : Bool
  dispatched : Bool
  level : Fin 8
  pendingLevel : Option (Fin 8)
  link : ChainLink
  carry : ChainCarry
  deriving DecidableEq, Repr

/-- An ABSENT ring's entry, every other field at its cleared value (R22, R46, R69). -/
def SubRing.cleared : SubRing where
  state := .absent
  base := 0
  log2 := 0
  producer := 0
  consumer := 0
  bound := 0
  head := .empty
  fetchInFlight := false
  fetchQueued := false
  dispatched := false
  level := 0
  pendingLevel := none
  link := .unlinked
  carry := .closed

/-! ## Completion rings (Tables 1.2, 8.5) -/

/-- States of a completion ring (R21). -/
inductive CrState where
  | absent | active | faulted
  deriving DecidableEq, Repr

/-- Coalesce timer (R128). -/
inductive Timer where
  | absent
  | running (start : Tick)
  | elapsed (start : Tick)
  deriving DecidableEq, Repr

/-- Message write of a completion ring (Table 8.5). -/
inductive MessageWrite where
  | none | inFlight | inFlightArmHeld
  deriving DecidableEq, Repr

/-- An interrupt vector: enable, address as stored, data (Table 1.2). -/
structure IntVector where
  enabled : Bool
  address : BitVec 64
  data : Word32
  deriving DecidableEq, Repr

/-- A completion record in an outbound list (Table 8.1). The phase is added when the write is issued.
`noIntr` is the command's NO_INTR, which R127 consults when the write is acknowledged. -/
structure CplRecord where
  tag : BitVec 16
  srId : Fin 16
  status : Status
  srHead : Nat
  late : Bool
  preempted : Bool
  substituted : Bool
  chainOpen : Bool
  result : Word32
  bytesDone : Nat
  noIntr : Bool
  deriving DecidableEq, Repr

/-- Completion ring table entry (Tables 1.2 and 8.5). `recordWrite` tells that a record write of the
ring is presented or outstanding (R18), `resetWrite` that RESET_CR met a write of the ring, so that its
answer only retires it (R20, R133). The vector of CR0 is an engine parameter (R135). -/
structure CplRing where
  state : CrState
  base : Nat
  log2 : Nat
  producer : Nat
  consumer : Nat
  phase : Bool
  reserved : Nat
  outbound : List CplRecord
  vector : IntVector
  threshold : Nat
  coalesceTime : Nat
  armed : Bool
  unsignalled : Nat
  timer : Timer
  message : MessageWrite
  recordWrite : Bool
  resetWrite : Bool
  discarded : Nat
  lastTaker : Fin 16
  deriving DecidableEq, Repr

/-- A vector that is disabled, with address and data 0 (Table 10.4). -/
def IntVector.cleared : IntVector := ⟨false, 0, 0⟩

/-- An ABSENT completion ring's entry; the last reservation taker is SR15 (R9, R22). -/
def CplRing.cleared : CplRing where
  state := .absent
  base := 0
  log2 := 0
  producer := 0
  consumer := 0
  phase := false
  reserved := 0
  outbound := []
  vector := .cleared
  threshold := 0
  coalesceTime := 0
  armed := false
  unsignalled := 0
  timer := .absent
  message := .none
  recordWrite := false
  resetWrite := false
  discarded := 0
  lastTaker := 15

/-! ## Dispatcher (Tables 3.1, 3.3) -/

/-- The status a termination request carries (R61). -/
inductive TermRequest where
  | deadlineMissed | aborted
  deriving DecidableEq, Repr

/-- Context record of a dispatched command (Table 3.3). -/
structure Context where
  ring : Fin 16
  op : Opcode
  fields : Fields
  continuation : Bool
  level : Fin 8
  total : Nat
  bytesDone : Nat
  row : Nat
  rowOffset : Nat
  crc : Option Word32
  expiry : Option Tick
  late : Bool
  preempted : Bool
  substituted : Bool
  request : Option TermRequest
  deriving DecidableEq, Repr

/-- Dispatcher state (Table 3.1): the active context, the suspension stack with its top first, and the
round-robin pointer of each level. -/
structure Dispatcher where
  active : Option Context
  stack : List Context
  pointers : Vector (Fin 16) 8
  deriving DecidableEq, Repr

/-- No context, every pointer at SR1 (R69). -/
def Dispatcher.cleared : Dispatcher := ⟨none, [], Vector.replicate 8 1⟩

/-! ## Transfer Lane (Table 4.1) -/

/-- Lane states (Table 4.2). -/
inductive LaneState where
  | idle | reading | writing | held
  deriving DecidableEq, Repr

/-- Segment fault (Table 4.1). -/
inductive SegmentFault where
  | none | read | write
  deriving DecidableEq, Repr

/-- Mapping of a source input for the life of a segment (R72): its own addresses, or a window with the
match base and substitute base it had when the segment was planned (R97). -/
inductive Mapping where
  | own
  | window (index : Fin 8) (matchBase substituteBase : Nat)
  deriving DecidableEq, Repr

/-- Progress of one transfer unit (R73 to R75). A withdrawn unit returns to `waiting`. -/
inductive UnitState where
  | waiting | presented | granted | success | error
  deriving DecidableEq, Repr

/-- A transfer unit: on the second input or not, its number j within the input, its progress. -/
structure TransferUnit where
  second : Bool
  index : Nat
  state : UnitState
  deriving DecidableEq, Repr

/-- Plan and units of the segment in flight (R72, R73): the position of its first byte, its length, the
mapping of each source input, and its units in the order of R74 and R75. -/
structure Segment where
  start : Nat
  row : Nat
  rowOffset : Nat
  length : Nat
  map1 : Mapping
  map2 : Mapping
  reads : List TransferUnit
  writes : List TransferUnit
  deriving DecidableEq, Repr

/-- Transfer Lane state (Table 4.1). The progress of the active command stands in its context record,
its one home (R71). -/
structure Lane where
  state : LaneState
  segment : Option Segment
  fault : SegmentFault
  buffer1 : List Byte
  buffer2 : List Byte
  deriving DecidableEq, Repr

/-- A discarded segment buffer. -/
def emptyBuffer : List Byte := List.replicate Config.bufferBytes 0

/-- The lane IDLE, with no segment and no progress (R82). That the segment fault is `none` and the buffers
are zero while no segment is in flight is the model's choice: the manual gives no value (DESIGN CHOICE,
assumption 20). -/
def Lane.cleared : Lane := ⟨.idle, none, .none, emptyBuffer, emptyBuffer⟩

/-! ## Windows, trigger lines, timebase -/

/-- Substitution window entry and the count kept beside it (Table 5.1). -/
structure Window where
  enabled : Bool
  locked : Bool
  matchBase : Nat
  matchLength : Nat
  substituteBase : Nat
  count : Nat
  deriving DecidableEq, Repr

/-- The cleared entry of R90. -/
def Window.cleared : Window := ⟨false, false, 0, 0, 0, 0⟩

/-- Edge select of a trigger line (Table 7.2). -/
inductive EdgeSelect where
  | none | rising | falling | both
  deriving DecidableEq, Repr

/-- Trigger line (Table 7.1); `filtered` is true for high. -/
structure TriggerLine where
  edge : EdgeSelect
  filterLength : Nat
  filtered : Bool
  runCount : Nat
  credits : Nat
  overrun : Bool
  deriving DecidableEq, Repr

/-- The line after power-on reset (Table 7.3). -/
def TriggerLine.cleared : TriggerLine := ⟨.none, 0, false, 0, 0, false⟩

/-- Watch list entry (R104). -/
structure WatchEntry where
  ring : Fin 16
  place : Place
  admitted : Tick
  budget : Nat
  expiry : Tick
  deriving DecidableEq, Repr

/-- Timebase and Deadline Monitor (Table 6.1, R104); the tick divider is an engine parameter. -/
structure Timebase where
  tick : Tick
  prescaler : Nat
  watch : List WatchEntry
  deriving DecidableEq, Repr

/-! ## Memory Port (4.5) -/

/-- The five requesters, in the fixed order of R84. -/
inductive Requester where
  | ringFetch | lane | completion | admin | control
  deriving DecidableEq, Repr

/-- Kinds of memory transaction (Table 4.8). A unit is named by its place in the segment's list. -/
inductive TransactionKind where
  | recordFetch (ring : Fin 16)
  | readUnit (k : Nat)
  | writeUnit (k : Nat)
  | completionWrite (ring : Fin 8)
  | messageWrite (ring : Fin 8)
  | resultWrite
  | faultMessage
  deriving DecidableEq, Repr

/-- A request as presented and as issued to the interconnect: kind, address, size in bytes, and the
bytes written (none for a read). -/
structure Request where
  kind : TransactionKind
  address : Nat
  size : Nat
  data : List Byte
  deriving DecidableEq, Repr

/-- An entry of the outstanding list (R84). -/
structure Transaction where
  id : Fin 32
  issued : Tick
  request : Request
  deriving DecidableEq, Repr

/-- Memory Port: the presented request of each requester (R83), the outstanding list, the identifiers
held by abandoned transactions (R88), the rotation pointer (R84). -/
structure Port where
  ringFetch : Option Request
  lane : Option Request
  completion : Option Request
  admin : Option Request
  control : Option Request
  outstanding : List Transaction
  abandoned : List (Fin 32)
  pointer : Requester
  deriving DecidableEq, Repr

/-- Nothing presented or outstanding, every identifier free, pointer at Engine Control (R89). -/
def Port.cleared : Port := ⟨none, none, none, none, none, [], [], .control⟩

/-! ## Admin Unit (9.1) -/

/-- The Admin Unit: idle, a command just taken, a result write and (in HALTED) its recorded answer,
ABORT_SR waiting for the two markers with its noted end state (R147), or ABORT_SR waiting for the
ring's records to leave the outbound list with its skipped count (R149). The command's record is the
one in the SR0 head slot. -/
inductive AdminState where
  | idle
  | taken
  | resultWrite (record : Line) (address : Nat) (answer : Option Bool)
  | abortMarkers (ring : Fin 16) (endFaulted : Bool)
  | abortRecords (ring : Fin 16) (skipped : Nat)
  deriving DecidableEq, Repr

/-! ## Engine Control (Table 10.1) -/

/-- Engine states (R158). -/
inductive EngineState where
  | off | running | pausing | paused | halted | resetting
  deriving DecidableEq, Repr

/-- Fault kinds (Table 11.3). -/
inductive FaultKind where
  | none | adminConfig | notifyAbsent | notifyRange | srFetch | crWrite | msgWrite
  | adminFetch | adminWrite
  deriving DecidableEq, Repr

/-- Fault capture (R167). -/
structure Capture where
  valid : Bool
  more : Bool
  kind : FaultKind
  ring : Fin 16
  address : BitVec 48
  deriving DecidableEq, Repr

/-- The capture after either reset (Table 10.4). -/
def Capture.cleared : Capture := ⟨false, false, .none, 0, 0⟩

/-- Engine Control state (Table 10.1): engine state, DEVCTL ENABLE and PAUSE, the administrative ring
registers, the engine parameters, the fault capture, the owed fault messages and the fault message
write in flight. -/
structure Control where
  engine : EngineState
  enable : Bool
  pauseBit : Bool
  srBase : BitVec 48
  crBase : BitVec 48
  srLog2 : BitVec 4
  crLog2 : BitVec 4
  segmentSize : Nat
  responseTimeout : Nat
  tickDivider : Nat
  faultVector : IntVector
  crVector : IntVector
  capture : Capture
  owed : Nat
  faultWrite : Bool
  deriving DecidableEq, Repr

/-- Engine Control after power-on reset (Table 10.4). -/
def Control.cleared : Control where
  engine := .off
  enable := false
  pauseBit := false
  srBase := 0
  crBase := 0
  srLog2 := 0
  crLog2 := 0
  segmentSize := Config.defaultSegmentSize
  responseTimeout := Config.defaultResponseTimeout
  tickDivider := Config.defaultTickDivider
  faultVector := .cleared
  crVector := .cleared
  capture := .cleared
  owed := 0
  faultWrite := false

/-! ## The whole machine -/

/-- The state of the TE-8: one field for each block or table, and the queue of waiting commands.
`fetchLast` and `cplLast` are the presentation orders of R85; `leftWrites` holds, for each completion
ring number, the marker of a write left in flight by DELETE_CR (R141). -/
structure State where
  ctl : Control
  srs : Vector SubRing 16
  fetchLast : Fin 16
  crs : Vector CplRing 8
  cplLast : Fin 8
  leftWrites : Vector Bool 8
  disp : Dispatcher
  lane : Lane
  wins : Vector Window 8
  trigs : Vector TriggerLine 8
  time : Timebase
  admin : AdminState
  port : Port
  pending : List Instr
  deriving DecidableEq, Repr

/-- The machine right after power-on reset (R166 and the tables it gathers), with no command waiting. -/
def State.reset : State where
  ctl := .cleared
  srs := Vector.replicate 16 .cleared
  fetchLast := 15
  crs := Vector.replicate 8 .cleared
  cplLast := 7
  leftWrites := Vector.replicate 8 false
  disp := .cleared
  lane := .cleared
  wins := Vector.replicate 8 .cleared
  trigs := Vector.replicate 8 .cleared
  time := ⟨0, 0, []⟩
  admin := .idle
  port := .cleared
  pending := []

/-- Why a step stops with a fault. -/
inductive Fault where
  /-- Raised by every answer and late-response command whose identifier is held by no transaction,
  outstanding or abandoned. The manual gives the engine no rule for such a response (R87, R166); to
  stop is safe. -/
  | spuriousResponse
  /-- Raised by every answer and late-response command whose identifier belongs to an outstanding
  transaction of another kind than the command answers. The manual gives no rule for it (R87,
  Table 4.8); to stop is safe. -/
  | answerMismatch
  deriving DecidableEq, Repr

/-- Why a command is refused. -/
inductive Refusal where
  /-- For a command that has no meaning yet, with its mnemonic; no command raises it; safe. -/
  | notModelled (mnemonic : String)
  deriving DecidableEq, Repr

end Sys2Proof.Machine
end

