-- ==== Sys2Proof/Machine/Ops.lean ====
section
/-! DEFINITION. The named operations over the tables: reading and writing one entry, ring arithmetic,
producing a completion, reporting a fault, the watch list, halting. Every block's file is written over these. -/

namespace Sys2Proof.Machine

/-! ## One entry of a table -/

/-- Submission ring entry n. -/
def State.sr (s : State) (n : Fin 16) : SubRing := s.srs.get n

/-- Replace submission ring entry n. -/
def State.setSr (s : State) (n : Fin 16) (r : SubRing) : State := { s with srs := s.srs.set n r }

/-- Completion ring entry n. -/
def State.cr (s : State) (n : Fin 8) : CplRing := s.crs.get n

/-- Replace completion ring entry n. -/
def State.setCr (s : State) (n : Fin 8) (c : CplRing) : State := { s with crs := s.crs.set n c }

/-- Substitution window n. -/
def State.win (s : State) (n : Fin 8) : Window := s.wins.get n

/-- Replace substitution window n. -/
def State.setWin (s : State) (n : Fin 8) (w : Window) : State := { s with wins := s.wins.set n w }

/-- Trigger line n. -/
def State.trig (s : State) (n : Fin 8) : TriggerLine := s.trigs.get n

/-- Replace trigger line n. -/
def State.setTrig (s : State) (n : Fin 8) (t : TriggerLine) : State :=
  { s with trigs := s.trigs.set n t }

/-- Round-robin pointer of a level. -/
def State.pointer (s : State) (p : Fin 8) : Fin 16 := s.disp.pointers.get p

/-- The marker of a write of completion ring n left in flight by DELETE_CR (R141). -/
def State.leftWrite (s : State) (n : Fin 8) : Bool := s.leftWrites.get n

/-- Set or clear that marker. -/
def State.setLeftWrite (s : State) (n : Fin 8) (b : Bool) : State :=
  { s with leftWrites := s.leftWrites.set n b }

/-- Replace the engine state. -/
def State.setEngine (s : State) (e : EngineState) : State := { s with ctl := { s.ctl with engine := e } }

/-! ## Orders and rotations -/

/-- SR0 to SR15 in ascending order. -/
def allSr : List (Fin 16) := [0, 1, 2, 3, 4, 5, 6, 7, 8, 9, 10, 11, 12, 13, 14, 15]

/-- The transfer rings SR1 to SR15 in ascending order. -/
def transferSr : List (Fin 16) := [1, 2, 3, 4, 5, 6, 7, 8, 9, 10, 11, 12, 13, 14, 15]

/-- CR0 to CR7 (or the eight windows, lines or levels) in ascending order. -/
def all8 : List (Fin 8) := [0, 1, 2, 3, 4, 5, 6, 7]

/-- An ascending list as a rotation that starts after `last` and ends with it. -/
def rotate {n : Nat} (l : List (Fin n)) (last : Fin n) : List (Fin n) :=
  l.filter (fun x => last < x) ++ l.filter (fun x => x ≤ last)

/-! ## Ring arithmetic (R1, R2) -/

/-- Size of a submission ring. -/
def SubRing.size (r : SubRing) : Nat := 2 ^ r.log2

/-- Size of a completion ring. -/
def CplRing.size (c : CplRing) : Nat := 2 ^ c.log2

/-- (a − b) mod size, for indices of a ring of that size (R2). -/
def indexDiff (size a b : Nat) : Nat := (a + size - b % size) % size

/-- Records awaiting admission: (P − C) mod size (R2). -/
def SubRing.waiting (r : SubRing) : Nat := indexDiff r.size r.producer r.consumer

/-- Address of the record that would be fetched next: base + C × 64 (R1, R8). -/
def SubRing.fetchAddress (r : SubRing) : Nat := r.base + r.consumer * 64

/-- Occupied entries: (P − C) mod size (R2). -/
def CplRing.occupied (c : CplRing) : Nat := indexDiff c.size c.producer c.consumer

/-- A free position exists when occupied + reserved < size − 1 (R2, R14). -/
def CplRing.hasFree (c : CplRing) : Bool := c.occupied + c.reserved < c.size - 1

/-- Address of the entry written next: base + P × 16 (R1, R18). -/
def CplRing.writeAddress (c : CplRing) : Nat := c.base + c.producer * 16

/-- Raise a count by `by_`, stopping at `limit`. -/
def saturate (limit count by_ : Nat) : Nat := min limit (count + by_)

/-- The vector of a completion ring; CR0's is the engine parameter of SET_ENGINE (R135). -/
def State.vectorOf (s : State) (n : Fin 8) : IntVector :=
  if n = 0 then s.ctl.crVector else (s.cr n).vector

/-! ## Engine state -/

/-- RUNNING, PAUSING or PAUSED: the states in which every block but the Dispatcher works (R160). -/
def State.works (s : State) : Bool :=
  s.ctl.engine = .running || s.ctl.engine = .pausing || s.ctl.engine = .paused

/-- Ticks from `since` to now, modulo 2^32. -/
def State.elapsedSince (s : State) (since : Tick) : Nat := (s.time.tick - since).toNat

/-! ## Completion production (R15, R21) -/

/-- Append a record to the outbound list of a completion ring; on a FAULTED ring it is discarded at
once: its reservation is released and the discarded count rises (R15, R21). -/
def produce (s : State) (n : Fin 8) (rec : CplRecord) : State :=
  let c := s.cr n
  if c.state = .faulted then
    s.setCr n { c with
      reserved := c.reserved - 1
      discarded := saturate Config.countLimit c.discarded 1 }
  else s.setCr n { c with outbound := c.outbound ++ [rec] }

/-! ## Watch list (R104) -/

/-- Remove the entries of a ring at a place. -/
def State.unwatch (s : State) (n : Fin 16) (p : Place) : State :=
  { s with time := { s.time with
      watch := s.time.watch.filter (fun e => !(e.ring = n && e.place = p)) } }

/-- An entry after its command moved from one place to another. -/
def WatchEntry.moved (n : Fin 16) (p q : Place) (e : WatchEntry) : WatchEntry :=
  if e.ring = n && e.place = p then { e with place := q } else e

/-- Follow a ring's command from one place to another (R104). -/
def State.moveWatch (s : State) (n : Fin 16) (p q : Place) : State :=
  { s with time := { s.time with watch := s.time.watch.map (WatchEntry.moved n p q) } }

/-- Watch a command that enters its head slot with a non-zero budget (R104). -/
def State.watchHead (s : State) (n : Fin 16) (budget : Nat) : State :=
  if budget = 0 then s
  else { s with time := { s.time with
    watch := s.time.watch ++
      [⟨n, .head, s.time.tick, budget, s.time.tick + BitVec.ofNat 32 budget⟩] } }

/-! ## Fault reports (R167, R170) -/

/-- A fault report reaches the capture: the first is captured whole and, with the fault vector enabled,
owes a fault message; a later one only sets MORE (R167, R170). -/
def reportFault (s : State) (kind : FaultKind) (ring : Fin 16) (address : Nat) : State :=
  if s.ctl.capture.valid then
    { s with ctl := { s.ctl with capture := { s.ctl.capture with more := true } } }
  else
    { s with ctl := { s.ctl with
        capture := ⟨true, false, kind, ring, BitVec.ofNat 48 address⟩
        owed := if s.ctl.faultVector.enabled then saturate Config.owedLimit s.ctl.owed 1
                else s.ctl.owed } }

/-! ## Withdrawing presented requests (R83) -/

/-- A unit that was presented and is withdrawn. -/
def TransferUnit.withdrawn (u : TransferUnit) : TransferUnit :=
  if u.state = .presented then { u with state := .waiting } else u

/-- A segment whose presented unit is withdrawn. -/
def Segment.withdrawn (g : Segment) : Segment :=
  { g with reads := g.reads.map TransferUnit.withdrawn, writes := g.writes.map TransferUnit.withdrawn }

/-- The lane withdraws the unit it has presented (R74, R75, R82). -/
def withdrawLane (s : State) : State :=
  { s with
    lane := { s.lane with segment := s.lane.segment.map Segment.withdrawn }
    port := { s.port with lane := none } }

/-- The Completion Unit withdraws its presented request: a record stays at the head of its outbound
list, a message stays due (R162). -/
def withdrawCompletion (s : State) : State :=
  let s' := { s with port := { s.port with completion := none } }
  match s.port.completion with
  | some ⟨.completionWrite n, _, _, _⟩ =>
    s'.setCr n { s.cr n with recordWrite := false, resetWrite := false }
  | some ⟨.messageWrite n, _, _, _⟩ =>
    s'.setCr n { s.cr n with message := .none, resetWrite := false }
  | _ => s'

/-- The Admin Unit withdraws its presented result write (R139). -/
def withdrawAdmin (s : State) : State := { s with port := { s.port with admin := none } }

/-- Entry into HALTED from RUNNING, PAUSING or PAUSED: the Completion Unit's and the Admin Unit's
presented requests are withdrawn (R161, R162). -/
def halt (s : State) : State :=
  if s.works then (withdrawAdmin (withdrawCompletion s)).setEngine .halted else s

/-! ## Completion of an administrative command (R126, R137) -/

/-- The tag of the command in the SR0 head slot. -/
def State.adminTag (s : State) : BitVec 16 :=
  match (s.sr 0).head with
  | .admin r _ => recordTag r
  | _ => 0

/-- The administrative completion record (R126). -/
def adminRecord (s : State) (status : Status) (result : Nat) : CplRecord where
  tag := s.adminTag
  srId := 0
  status := status
  srHead := (s.sr 0).consumer
  late := false
  preempted := false
  substituted := false
  chainOpen := false
  result := BitVec.ofNat 32 result
  bytesDone := 0
  noIntr := false

/-- The Admin Unit produces its command's completion into CR0: the SR0 head slot empties and the unit
becomes idle (R137). -/
def finishAdmin (s : State) (status : Status) (result : Nat) : State :=
  let s1 := produce s 0 (adminRecord s status result)
  { s1.setSr 0 { s1.sr 0 with head := .empty } with admin := .idle }

/-- DEVSTS ADMIN_BUSY: a command is in execution (R137). -/
def State.adminBusy (s : State) : Bool := s.admin ≠ .idle

end Sys2Proof.Machine
end

