-- ==== Sys2Proof/Machine/Flags.lean ====
section
/-! DEFINITION. Every flag and code the manual computes: the codes of statuses, reasons and fault kinds
(section 11), the completion flags LATE, PREEMPTED, SUBSTITUTED and CHAIN_OPEN (R109, R125), FAULT_N and
the status registers as they read (R168, R171). -/

namespace Sys2Proof.Machine

/-! ## Codes (Tables 11.2, 11.3, 11.7, 11.8) -/

/-- Status codes (Table 11.7). -/
def Status.code : Status → Nat
  | .success => 0x00
  | .mismatch => 0x01
  | .invalid => 0x02
  | .readFault => 0x03
  | .writeFault => 0x04
  | .deadlineMissed => 0x05
  | .aborted => 0x06
  | .skipped => 0x07
  | .ok => 0x00
  | .unknown => 0x81
  | .badField => 0x82
  | .noRing => 0x83
  | .ringExists => 0x84
  | .inUse => 0x85
  | .wrongState => 0x86
  | .locked => 0x87
  | .bufferFault => 0x88

/-- INVALID reason codes (Table 11.8). -/
def Reason.code : Reason → Nat
  | .unknownOpcode => 1
  | .reservedSet => 2
  | .flagCombination => 3
  | .triggerOnContinuation => 4
  | .zeroLength => 5
  | .stride => 6
  | .addressRange => 7
  | .atomicTooLong => 8

/-- Fault kind codes (Table 11.3). -/
def FaultKind.code : FaultKind → Nat
  | .none => 0
  | .adminConfig => 1
  | .notifyAbsent => 2
  | .notifyRange => 3
  | .srFetch => 4
  | .crWrite => 5
  | .msgWrite => 6
  | .adminFetch => 7
  | .adminWrite => 8

/-- Engine state codes (Table 11.2, DEVSTS STATE). -/
def EngineState.code : EngineState → Nat
  | .off => 0
  | .running => 1
  | .pausing => 2
  | .paused => 3
  | .halted => 4
  | .resetting => 5

/-- Submission ring state codes (11.5). -/
def SrState.code : SrState → Nat
  | .absent => 0
  | .active => 1
  | .paused => 2
  | .aborting => 3
  | .faulted => 4

/-- Completion ring state codes (11.5). -/
def CrState.code : CrState → Nat
  | .absent => 0
  | .active => 1
  | .faulted => 2

/-- Chain link codes (Table 11.11). -/
def ChainLink.code : ChainLink → Nat
  | .unlinked => 0
  | .linked => 1
  | .broken => 2

/-- Edge select codes (Table 11.10). -/
def EdgeSelect.code : EdgeSelect → Nat
  | .none => 0
  | .rising => 1
  | .falling => 2
  | .both => 3

/-- The edge select of a code (Table 11.10); codes above 3 are out of range (R174). -/
def edgeSelectOf : Nat → Option EdgeSelect
  | 0 => some .none
  | 1 => some .rising
  | 2 => some .falling
  | 3 => some .both
  | _ => none

/-! ## Completion flags (R109, R125) -/

/-- The status of a termination request (R61). -/
def TermRequest.status : TermRequest → Status
  | .deadlineMissed => .deadlineMissed
  | .aborted => .aborted

/-- LATE of a dispatched command that ends with `status`: its LATE mark, or a DEADLINE_MISSED request
dropped because the command ended for a reason of its own; never with DEADLINE_MISSED (R109). -/
def Context.lateFlag (c : Context) (status : Status) : Bool :=
  status ≠ .deadlineMissed && (c.late || c.request = some .deadlineMissed && status ≠ .aborted)

/-- The command is a chain member: it carries CHAIN or follows one that does (2.6). -/
def Context.member (c : Context) : Bool := c.continuation || c.fields.flags.chain

/-- The same, of a head-slot command. -/
def HeadCmd.member (h : HeadCmd) : Bool := h.continuation || h.fields.flags.chain

/-- The head slot holds no command. -/
def Head.isEmpty : Head → Bool
  | .empty => true
  | _ => false

/-- CHAIN_OPEN: the member carries CHAIN and ends SUCCESS while its ring's head slot is empty and its
producer index equals its consumer index (R43, R125). -/
def chainOpenFlag (r : SubRing) (c : Context) (status : Status) : Bool :=
  status = .success && c.fields.flags.chain && r.head.isEmpty && r.producer = r.consumer

/-- The completion record of a dispatched command (R122, R125): its marks, and the SR head of its ring
at production. -/
def contextRecord (r : SubRing) (c : Context) (status : Status) (result : Word32) : CplRecord where
  tag := c.fields.tag
  srId := c.ring
  status := status
  srHead := r.consumer
  late := c.lateFlag status
  preempted := c.preempted
  substituted := c.substituted
  chainOpen := chainOpenFlag r c status
  result := result
  bytesDone := c.bytesDone
  noIntr := c.fields.flags.noIntr

/-- The completion record of a head-slot command that was never dispatched: bytes done 0, neither
PREEMPTED nor SUBSTITUTED (R125). LATE only on a head given ABORTED; INVALID and SKIPPED records count
as records without NO_INTR (R24, R127). -/
def headRecord (n : Fin 16) (r : SubRing) (h : HeadCmd) (status : Status) (result : Word32) :
    CplRecord where
  tag := h.fields.tag
  srId := n
  status := status
  srHead := r.consumer
  late := status = .aborted && h.late
  preempted := false
  substituted := false
  chainOpen := false
  result := result
  bytesDone := 0
  noIntr := h.fields.flags.noIntr && status ≠ .invalid && status ≠ .skipped

/-! ## The completion record in memory (Table 11.6) -/

/-- 1 for true, 0 for false. -/
def bit (b : Bool) : Nat := if b then 1 else 0

/-- The sixteen bytes of a completion record with the given phase (Table 11.6, R173). -/
def CplRecord.bytes (rec : CplRecord) (phase : Bool) : List Byte :=
  leBytes 2 rec.tag.toNat ++ leBytes 1 rec.srId.val ++ leBytes 1 rec.status.code ++
  leBytes 2 rec.srHead ++
  leBytes 1 (bit rec.late + 2 * bit rec.preempted + 4 * bit rec.substituted + 8 * bit rec.chainOpen) ++
  leBytes 1 (bit phase) ++ leBytes 4 rec.result.toNat ++ leBytes 4 rec.bytesDone

/-! ## The fault pin and the registers as they read (R168, R171) -/

/-- The FAULT_N output: low while VALID is 1, high while VALID is 0 (R168). -/
def State.faultN (s : State) : Bool := !s.ctl.capture.valid

/-- DEVSTS ACTIVE_VALID: the lane holds an active context (R70). -/
def State.activeValid (s : State) : Bool := s.disp.active.isSome

/-- DEVSTS ACTIVE_LEVEL: the context level of the active context, 0 without one (R47, Table 11.2). -/
def State.activeLevel (s : State) : Nat :=
  match s.disp.active with
  | some c => c.level.val
  | none => 0

/-- DEVSTS: STATE 2:0, ADMIN_BUSY 4, ACTIVE_VALID 8, ACTIVE_LEVEL 14:12, STACK_DEPTH 19:16. -/
def State.devsts (s : State) : Nat :=
  s.ctl.engine.code + 2 ^ 4 * bit s.adminBusy + 2 ^ 8 * bit s.activeValid +
  2 ^ 12 * s.activeLevel + 2 ^ 16 * s.disp.stack.length

/-- DEVCTL as it reads: ENABLE and PAUSE as stored, SRESET 0 (R158). -/
def State.devctl (s : State) : Nat := bit s.ctl.enable + 2 * bit s.ctl.pauseBit

/-- FAULT: VALID 0, MORE 1, KIND 11:8, RING 19:16 (Table 11.2). -/
def State.faultRegister (s : State) : Nat :=
  bit s.ctl.capture.valid + 2 * bit s.ctl.capture.more + 2 ^ 8 * s.ctl.capture.kind.code +
  2 ^ 16 * s.ctl.capture.ring.val

/-- A read of the register window at a byte offset (R171): it has no effect on any state, and NOTIFY
and the unassigned offsets read 0. -/
def readRegister (s : State) (offset : Nat) : Word32 :=
  match offset with
  | 0x00 => Config.idRegister
  | 0x04 => BitVec.ofNat 32 s.devctl
  | 0x08 => BitVec.ofNat 32 s.devsts
  | 0x10 => s.ctl.srBase.extractLsb' 0 32
  | 0x14 => (s.ctl.srBase.extractLsb' 32 16).zeroExtend 32
  | 0x18 => s.ctl.crBase.extractLsb' 0 32
  | 0x1C => (s.ctl.crBase.extractLsb' 32 16).zeroExtend 32
  | 0x20 => BitVec.ofNat 32 (s.ctl.srLog2.toNat + 2 ^ 8 * s.ctl.crLog2.toNat)
  | 0x24 => BitVec.ofNat 32 s.faultRegister
  | 0x28 => s.ctl.capture.address.extractLsb' 0 32
  | 0x2C => (s.ctl.capture.address.extractLsb' 32 16).zeroExtend 32
  | _ => 0#32

end Sys2Proof.Machine
end

