-- ==== Sys2Proof/Machine/Operands.lean ====
section
/-! DEFINITION. The operand forms: validation of a transfer record (R25 to R28, R172), the unused
positions of administrative records (R138, R174), the governing window of an address (R93), the plan of a
segment (R29, R95) and the address and data of each transfer unit (R73, R75), and the CRC (R38). -/

namespace Sys2Proof.Machine

/-! ## Validation at admission (R26) -/

/-- Every byte of the pattern is zero. -/
def Fields.patternZero (f : Fields) : Bool := f.pattern.all (fun b => b = 0)

/-- The reserved positions of a transfer record are zero: bytes 6, 7, 11 and 56 to 63, flags bits 15:8,
trigger-line bits 7:3 (R172). -/
def reservedClear (r : Line) : Bool :=
  fieldAt r 6 2 = 0 && byteAt r 11 = 0 && fieldAt r 56 8 = 0 && byteAt r 1 < 8 && byteAt r 3 = 0

/-- The must-be-zero fields of Table 2.3 are zero (R25). -/
def mustBeZeroClear (op : Opcode) (f : Fields) : Bool :=
  let noStrides := f.sourceStride = 0 && f.destStride = 0 && f.rowLength = 0 && f.rows = 0
  match op with
  | .copy => noStrides && Fields.patternZero f
  | .copy2d => f.length = 0 && Fields.patternZero f
  | .fill => f.source = 0 && noStrides
  | .check => f.destination = 0 && noStrides && Fields.patternZero f
  | .compare => noStrides && Fields.patternZero f
  | .mark => f.length = 0 && f.source = 0 && f.destination = 0 && noStrides && Fields.patternZero f

/-- The FLAG_COMBINATION check passes (Table 2.4, order 3). -/
def flagsCombine (op : Opcode) (g : CmdFlags) : Bool :=
  !(g.crc && (op = .fill || op = .compare || op = .mark)) && !(op = .check && !g.crc) &&
  !(g.crcSeed && !g.crc)

/-- The ZERO_LENGTH check passes (Table 2.4, order 5). -/
def lengthNonzero (op : Opcode) (f : Fields) : Bool :=
  match op with
  | .mark => true
  | .copy2d => f.rowLength ≠ 0 && f.rows ≠ 0
  | _ => f.length ≠ 0

/-- Total length (R28). -/
def totalLength (op : Opcode) (f : Fields) : Nat :=
  match op with
  | .copy2d => f.rows * f.rowLength
  | .mark => 0
  | _ => f.length

/-- Extent of a two-dimensional area (Table 2.5). -/
def areaExtent (f : Fields) (stride : Nat) : Nat := (f.rows - 1) * stride + f.rowLength

/-- Source extent (Table 2.5); none where the opcode uses no source. -/
def sourceExtent (op : Opcode) (f : Fields) : Option Nat :=
  match op with
  | .copy | .check | .compare => some f.length
  | .copy2d => some (areaExtent f f.sourceStride)
  | .fill | .mark => none

/-- Destination extent (Table 2.5); none where the opcode uses no destination. -/
def destExtent (op : Opcode) (f : Fields) : Option Nat :=
  match op with
  | .copy | .fill | .compare => some f.length
  | .copy2d => some (areaExtent f f.destStride)
  | .check | .mark => none

/-- An address plus its extent does not exceed 2^48 (R27). -/
def inRange (address : Nat) : Option Nat → Bool
  | some extent => address + extent ≤ Config.addressLimit
  | none => true

/-- The address check passes (R27). -/
def addressesInRange (op : Opcode) (f : Fields) : Bool :=
  inRange f.source (sourceExtent op f) && inRange f.destination (destExtent op f)

/-- Outcome of validation (R26). -/
inductive Verdict where
  | execute (op : Opcode)
  | invalid (reason : Reason)
  deriving DecidableEq, Repr

/-- The checks of Table 2.4 in order; the first that fails gives the reason (R26). -/
def validate (r : Line) (continuation : Bool) : Verdict :=
  let f := decodeFields r
  match opcodeOf f.opcode with
  | none => .invalid .unknownOpcode
  | some op =>
    if !(reservedClear r && mustBeZeroClear op f) then .invalid .reservedSet
    else if !flagsCombine op f.flags then .invalid .flagCombination
    else if f.flags.trigWait && continuation then .invalid .triggerOnContinuation
    else if !lengthNonzero op f then .invalid .zeroLength
    else if op = .copy2d && f.destStride < f.rowLength then .invalid .stride
    else if !addressesInRange op f then .invalid .addressRange
    else if f.flags.noPreempt && Config.noPreemptLimit < totalLength op f then .invalid .atomicTooLong
    else .execute op

/-! ## Unused positions of an administrative record (R138, R174) -/

/-- The (offset, size) positions that Table 11.10 and the record frame assign to a command: byte 0, the
tag, and its parameters. -/
def assignedBytes : AdminOp → List (Nat × Nat)
  | .createCr => [(0, 1), (4, 2), (12, 1), (13, 1), (14, 1), (16, 8), (24, 2), (26, 1), (28, 8), (36, 4)]
  | .deleteCr => [(0, 1), (4, 2), (12, 1)]
  | .resetCr => [(0, 1), (4, 2), (12, 1)]
  | .createSr => [(0, 1), (4, 2), (12, 1), (13, 1), (14, 1), (15, 1), (16, 8), (24, 1)]
  | .deleteSr => [(0, 1), (4, 2), (12, 1)]
  | .abortSr => [(0, 1), (4, 2), (12, 1)]
  | .resetSr => [(0, 1), (4, 2), (12, 1)]
  | .setLevel => [(0, 1), (4, 2), (12, 1), (14, 1)]
  | .pauseSr => [(0, 1), (4, 2), (12, 2)]
  | .resumeSr => [(0, 1), (4, 2), (12, 2)]
  | .setWindow => [(0, 1), (4, 2), (12, 1), (13, 1), (16, 8), (24, 8), (32, 8)]
  | .clearWindow => [(0, 1), (4, 2), (12, 1)]
  | .setTrigger => [(0, 1), (4, 2), (12, 1), (13, 1), (14, 1)]
  | .setEngine =>
    [(0, 1), (4, 2), (12, 2), (14, 2), (16, 2), (18, 1), (20, 8), (28, 4), (32, 8), (40, 4)]
  | .query => [(0, 1), (4, 2), (12, 1), (13, 1), (16, 8)]
  | .identify => [(0, 1), (4, 2), (16, 8)]

/-- The unused bits within assigned bytes are clear (R174). -/
def unusedBitsClear (op : AdminOp) (r : Line) : Bool :=
  match op with
  | .createCr => byteAt r 26 < 2
  | .createSr => byteAt r 24 < 2
  | .setWindow => byteAt r 13 < 4
  | .setEngine => byteAt r 18 < 4
  | .pauseSr => !bitAt r 12 0
  | .resumeSr => !bitAt r 12 0
  | _ => true

/-- Byte i lies in one of the positions. -/
def coveredBy (positions : List (Nat × Nat)) (i : Nat) : Bool :=
  positions.any (fun p => p.1 ≤ i && i < p.1 + p.2)

/-- The second check of R138: every byte and bit the command does not use is zero. -/
def unusedClear (op : AdminOp) (r : Line) : Bool :=
  (List.range 64).all (fun i => coveredBy (assignedBytes op) i || byteAt r i = 0) && unusedBitsClear op r

/-- An address that is a multiple of 64 with an extent that ends at or below 2^48. -/
def alignedFit (base extent : Nat) : Bool := base % 64 = 0 && base + extent ≤ Config.addressLimit

/-- A vector's address, when its enable is set, is a multiple of 4 below 2^48 (R140, R154). -/
def vectorFits (enabled : Bool) (address : Nat) : Bool :=
  !enabled || (address % 4 = 0 && address < Config.addressLimit)

/-- The ring size exponent lies in 1..12. -/
def log2Fits (k : Nat) : Bool := 1 ≤ k && k ≤ 12

/-! ## The CRC (R38) -/

/-- One shift of the CRC register (R38, step 2). -/
def crcShift (c : Word32) : Word32 := if c.getLsbD 0 then (c >>> 1) ^^^ 0x82F63B78#32 else c >>> 1

/-- The register after one byte (R38). -/
def crcByte (c : Word32) (b : Byte) : Word32 :=
  let x := c ^^^ b.zeroExtend 32
  crcShift (crcShift (crcShift (crcShift (crcShift (crcShift (crcShift (crcShift x)))))))

/-- The register after a run of bytes. -/
def crcRun (c : Word32) (bs : List Byte) : Word32 := bs.foldl crcByte c

/-- The final step of the CRC, and its inverse at seeding (R38, R39). -/
def crcFinal (c : Word32) : Word32 := c ^^^ 0xFFFFFFFF#32

/-- Initial CRC register at the first dispatch (Table 2.8). -/
def initialCrc (f : Fields) (continuation : Bool) (carry : ChainCarry) : Option Word32 :=
  if f.flags.crc then
    some (if f.flags.crcSeed then
      match continuation, carry with
      | true, .opened (some c) => crcFinal c
      | _, _ => crcFinal f.seed
    else 0xFFFFFFFF#32)
  else none

/-! ## Governing windows (R93) -/

/-- The window is enabled and its match range contains the address. -/
def Window.covers (w : Window) (a : Nat) : Bool :=
  w.enabled && w.matchBase ≤ a && a < w.matchBase + w.matchLength

/-- The governing window of a source address: the lowest-numbered enabled one whose range holds it. -/
def governing (ws : Vector Window 8) (a : Nat) : Option (Fin 8) :=
  all8.find? (fun i => (ws.get i).covers a)

/-- The mapping of a run that starts at address a (R95). -/
def mappingAt (ws : Vector Window 8) (a : Nat) : Mapping :=
  match governing ws a with
  | some i => .window i (ws.get i).matchBase (ws.get i).substituteBase
  | none => .own

/-- The address at which a source byte is read under a mapping (R73, R93). -/
def Mapping.address (m : Mapping) (a : Nat) : Nat :=
  match m with
  | .own => a
  | .window _ mb sb => sb + (a - mb)

/-- How many of the `n` bytes from address a on have the governing window g, counted up to the first
that has not (R95). -/
def runLength (ws : Vector Window 8) (g : Option (Fin 8)) : Nat → Nat → Nat
  | 0, _ => 0
  | n + 1, a => if governing ws a = g then runLength ws g n (a + 1) + 1 else 0

/-! ## Positions of a command (R30, R73) -/

/-- Source (first input) address of the byte at the command's position. -/
def Context.sourceAddress (c : Context) : Nat :=
  if c.op = .copy2d then c.fields.source + c.row * c.fields.sourceStride + c.rowOffset
  else c.fields.source + c.bytesDone

/-- Destination (second input, for COMPARE) address of the byte at the command's position. -/
def Context.destAddress (c : Context) : Nat :=
  if c.op = .copy2d then c.fields.destination + c.row * c.fields.destStride + c.rowOffset
  else c.fields.destination + c.bytesDone

/-- Bytes left to the end of the command, or of the current row (R29). -/
def Context.remaining (c : Context) : Nat :=
  if c.op = .copy2d then c.fields.rowLength - c.rowOffset else c.total - c.bytesDone

/-- The source inputs that are subject to substitution, by their current addresses (R94). -/
def Context.mappedInputs (c : Context) : List Nat :=
  if c.fields.flags.noSubst then []
  else match c.op with
    | .copy | .copy2d | .check => [c.sourceAddress]
    | .compare => [c.sourceAddress, c.destAddress]
    | .fill | .mark => []

/-- The segment's length: the least of segment size, bytes left, and the run under one governing window
on each mapped input (R29, R95). -/
def segmentLength (ws : Vector Window 8) (segmentSize : Nat) (c : Context) : Nat :=
  let limit := min segmentSize c.remaining
  c.mappedInputs.foldl (fun n a => min n (runLength ws (governing ws a) limit a)) limit

/-- Units per input: the length divided by 64, rounded up (R73). -/
def unitCount (length : Nat) : Nat := (length + 63) / 64

/-- A unit that is not yet presented. -/
def freshUnit (second : Bool) (j : Nat) : TransferUnit := ⟨second, j, .waiting⟩

/-- The read units in the order of R74. -/
def readUnits (op : Opcode) (length : Nat) : List TransferUnit :=
  match op with
  | .copy | .copy2d | .check => (List.range (unitCount length)).map (freshUnit false)
  | .compare =>
    (List.range (unitCount length)).flatMap (fun j => [freshUnit false j, freshUnit true j])
  | .fill | .mark => []

/-- The write units in ascending order (R75). -/
def writeUnits (op : Opcode) (length : Nat) : List TransferUnit :=
  match op with
  | .copy | .copy2d | .fill => (List.range (unitCount length)).map (freshUnit false)
  | .check | .compare | .mark => []

/-- The plan of the next segment of a context (R72): its length, one mapping per source input, and its
units. DESIGN CHOICE: for an input the command does not read, which R72 and R94 give no mapping, the first
mapping (of FILL) is that of the source field's position and the second (of any command but COMPARE) is the
byte's own address; nothing reads either (log entry 26). -/
def planSegment (ws : Vector Window 8) (segmentSize : Nat) (c : Context) : Segment :=
  let n := segmentLength ws segmentSize c
  let mapped := fun a => if c.fields.flags.noSubst then Mapping.own else mappingAt ws a
  { start := c.bytesDone
    row := c.row
    rowOffset := c.rowOffset
    length := n
    map1 := mapped c.sourceAddress
    map2 := if c.op = .compare then mapped c.destAddress else .own
    reads := readUnits c.op n
    writes := writeUnits c.op n }

/-! ## Transactions of a unit (R73 to R75) -/

/-- Bytes of unit j of a segment of length L: offsets 64 j to the lesser of 64 j + 63 and L − 1 (R73). -/
def unitLength (length j : Nat) : Nat := min 64 (length - 64 * j)

/-- The read transaction of unit k of the segment's read order. -/
def readRequest (c : Context) (g : Segment) (k : Nat) (u : TransferUnit) : Request where
  kind := .readUnit k
  address :=
    if u.second then g.map2.address (c.destAddress + 64 * u.index)
    else g.map1.address (c.sourceAddress + 64 * u.index)
  size := unitLength g.length u.index
  data := []

/-- Pattern byte (o mod 8) of a FILL (R34). -/
def patternByte (f : Fields) (o : Nat) : Byte := f.pattern.getD (o % 8) 0

/-- The data of write unit j: the buffered source bytes, or the pattern of a FILL (R75). -/
def writeData (c : Context) (g : Segment) (buffer : List Byte) (j : Nat) : List Byte :=
  if c.op = .fill then
    (List.range (unitLength g.length j)).map (fun i => patternByte c.fields (g.start + 64 * j + i))
  else (buffer.drop (64 * j)).take (unitLength g.length j)

/-- The write transaction of unit k. -/
def writeRequest (c : Context) (g : Segment) (buffer : List Byte) (k : Nat) (u : TransferUnit) :
    Request where
  kind := .writeUnit k
  address := c.destAddress + 64 * u.index
  size := unitLength g.length u.index
  data := writeData c g buffer u.index

/-- A buffer with bytes put at an offset (R74). -/
def putBytes (buffer : List Byte) (off : Nat) (bs : List Byte) : List Byte :=
  buffer.take off ++ bs ++ buffer.drop (off + bs.length)

/-- The lowest offset at which two byte runs differ, if any (R36, R78). -/
def firstDifference : List Byte → List Byte → Option Nat
  | x :: xs, y :: ys => if x = y then (firstDifference xs ys).map (· + 1) else some 0
  | _, _ => none

end Sys2Proof.Machine
end

