-- ==== Sys2Proof/Machine/Rings.lean ====
section
/-! DEFINITION. What follows a completion inside its event: the chain rules (R43 to R45), the drain of a
settled head (R17), the pending level (R48), and the closing steps of ABORT_SR (R148, R149). -/

namespace Sys2Proof.Machine

/-- The dispatched context of a ring, active or suspended. -/
def State.contextOf (s : State) (n : Fin 16) : Option Context :=
  match s.disp.active with
  | some c => if c.ring = n then some c else s.disp.stack.find? (fun d => d.ring = n)
  | none => s.disp.stack.find? (fun d => d.ring = n)

/-- The chain carry is OPEN. -/
def ChainCarry.isOpen : ChainCarry → Bool
  | .opened _ => true
  | .closed => false

/-- The CRC a chain carries; absent while it is CLOSED. -/
def ChainCarry.carried : ChainCarry → Option Word32
  | .opened c => c
  | .closed => none

/-- A ring has a chain in progress: its carry is OPEN, or its dispatched command is a first member that
carries CHAIN (R48). -/
def State.chainInProgress (s : State) (n : Fin 16) : Bool :=
  (s.sr n).carry.isOpen ||
  match s.contextOf n with
  | some c => !c.continuation && c.fields.flags.chain
  | none => false

/-- A pending level is applied once the ring has no chain in progress (R48). -/
def applyPending (s : State) (n : Fin 16) : State :=
  match (s.sr n).pendingLevel with
  | some l =>
    if s.chainInProgress n then s
    else s.setSr n { s.sr n with level := l, pendingLevel := none }
  | none => s

/-- A head-slot continuation that is not settled becomes settled SKIPPED (R44, step 2). -/
def Head.skipped : Head → Head
  | .transfer h =>
    match h.settlement with
    | .execute _ => if h.continuation then .transfer { h with settlement := .settled .skipped 0 } else .transfer h
    | .settled _ _ => .transfer h
  | other => other

/-- The ring after a chain member's SUCCESS (R43). -/
def SubRing.afterSuccess (r : SubRing) (c : Context) (result : Word32) : SubRing :=
  if !c.fields.flags.chain then { r with carry := .closed }
  else if r.head.isEmpty && r.producer = r.consumer then { r with carry := .closed, link := .unlinked }
  else { r with carry := .opened (if c.crc.isSome then some result else r.carry.carried) }

/-- The ring after a chain member's failure (R44). -/
def SubRing.afterFailure (r : SubRing) (c : Context) : SubRing :=
  if c.fields.flags.chain then
    { r with
      carry := .closed
      head := r.head.skipped
      link := if r.link = .linked then .broken else r.link }
  else { r with carry := .closed }

/-- The chain fields after the completion of a dispatched command; ABORTED leaves them to ABORT_SR
(R43, R44). A continuation settled SKIPPED is no longer watched (Table 6.2). -/
def chainAfter (s : State) (c : Context) (status : Status) (result : Word32) : State :=
  if !c.member || status = .aborted then s
  else if status = .success then s.setSr c.ring ((s.sr c.ring).afterSuccess c result)
  else
    let r := (s.sr c.ring).afterFailure c
    let s1 := s.setSr c.ring r
    if r.head = (s.sr c.ring).head then s1 else s1.unwatch c.ring .head

/-- A settled head drains once the ring's dispatched marker is clear, in RUNNING, PAUSING and PAUSED
(R17); the drain of a chain member closes the chain carry (R45). -/
def drainHead (s : State) (n : Fin 16) : State :=
  let r := s.sr n
  match r.head with
  | .transfer h =>
    match h.settlement with
    | .settled status result =>
      if s.works && !r.dispatched then
        (produce s r.bound (headRecord n r h status result)).setSr n
          { r with head := .empty, carry := if h.member then .closed else r.carry }
      else s
    | .execute _ => s
  | _ => s

/-- Steps 1 to 4 of R62 for a dispatched command that has left the lane or the stack: its completion is
produced, the dispatched marker clears, the chain fields follow, a settled head drains, a pending level
is applied (R58, R62). -/
def endDispatched (s : State) (c : Context) (status : Status) (result : Word32) : State :=
  let n := c.ring
  let r := s.sr n
  let s1 := produce s r.bound (contextRecord r c status result)
  let s2 := (s1.unwatch n .active).unwatch n .suspended
  let s3 := s2.setSr n { r with dispatched := false }
  applyPending (drainHead (chainAfter s3 c status result) n) n

/-! ## ABORT_SR's closing (R148, R149) -/

/-- Step 1 of R148: a head that is not settled gets an ABORTED completion; a settled one drains. -/
def abortHead (s : State) (n : Fin 16) : State :=
  let r := s.sr n
  match r.head with
  | .transfer h =>
    match h.settlement with
    | .execute _ =>
      ((produce s r.bound (headRecord n r h .aborted 0)).unwatch n .head).setSr n
        { r with head := .empty }
    | .settled _ _ => drainHead s n
  | _ => s

/-- Steps 2 to 5 of R148 on the ring. -/
def abortRing (s : State) (n : Fin 16) (endFaulted : Bool) : State :=
  let r := s.sr n
  let s1 := s.setSr n { r with consumer := r.producer, link := .unlinked, carry := .closed }
  let s2 := applyPending s1 n
  s2.setSr n { s2.sr n with state := if endFaulted then .faulted else .paused }

/-- The abort closes in the event in which the ring's fetch-in-flight and dispatched markers are both
clear, in the states in which the Admin Unit works (R139, R147, R148). -/
def abortClose (s : State) : State :=
  match s.admin with
  | .abortMarkers n endFaulted =>
    if s.works && !(s.sr n).fetchInFlight && !(s.sr n).dispatched then
      let s1 := abortHead s n
      { abortRing s1 n endFaulted with admin := .abortRecords n (s1.sr n).waiting }
    else s
  | _ => s

/-- The ABORT_SR completion is produced once the bound ring's outbound list holds no record of the
aborted ring (R149). DESIGN CHOICE: a record is the ring's when it carries its number, one that an earlier,
deleted ring of the number left there (R143) included (log entry 23). -/
def abortFinish (s : State) : State :=
  match s.admin with
  | .abortRecords n skipped =>
    if s.works && !((s.cr (s.sr n).bound).outbound.any (fun rec => rec.srId = n)) then
      finishAdmin s .ok skipped
    else s
  | _ => s

/-- Both closing points of a running ABORT_SR, taken in the event that reaches them. -/
def closeAbort (s : State) : State := abortFinish (abortClose s)

end Sys2Proof.Machine
end

