-- ==== Sys2Proof/Machine/Completion.lean ====
section
/-! DEFINITION. The Completion Unit: the order of record and message writes (R18, R85, R129), their
answers (R18 to R20, R130, R131, R133, R141), arming (R132) and the coalesce timer (R128). -/

namespace Sys2Proof.Machine

/-- The coalesce timer has elapsed. -/
def Timer.isElapsed : Timer → Bool
  | .elapsed _ => true
  | _ => false

/-- Completion ring n has a message due (R129). -/
def State.messageDue (s : State) (n : Fin 8) : Bool :=
  let c := s.cr n
  c.state = .active && (s.vectorOf n).enabled && c.armed && 0 < c.unsignalled &&
  (c.threshold ≤ c.unsignalled || c.timer.isElapsed)

/-- No transaction of the ring is presented or outstanding, one left in flight by DELETE_CR under its
number included (R129, R141). -/
def State.ringFree (s : State) (n : Fin 8) : Bool :=
  !(s.cr n).recordWrite && (s.cr n).message = .none && !s.leftWrite n

/-- The ring's message write may be presented (R129). -/
def State.messageAllowed (s : State) (n : Fin 8) : Bool :=
  s.messageDue n && s.ringFree n && s.works

/-- The ring's oldest record may be presented: R18, and a message that is due goes first (R129). -/
def State.recordAllowed (s : State) (n : Fin 8) : Bool :=
  (s.cr n).outbound ≠ [] && (s.cr n).state = .active && s.ringFree n && s.works &&
  !s.messageAllowed n

/-- The ring whose waiting write the Completion Unit presents next (R85). -/
def State.nextCompletion (s : State) : Option (Fin 8) :=
  (rotate all8 s.cplLast).find? (fun n => s.messageAllowed n || s.recordAllowed n)

/-- The record write of a ring: the oldest record with the ring's phase, at base + P × 16 (R18, R173). -/
def recordRequest (n : Fin 8) (c : CplRing) : Request where
  kind := .completionWrite n
  address := c.writeAddress
  size := Config.completionBytes
  data := match c.outbound with
    | rec :: _ => rec.bytes c.phase
    | [] => []

/-- The message write of a ring: the vector's data word at the vector's address (R129). -/
def messageRequest (n : Fin 8) (v : IntVector) : Request where
  kind := .messageWrite n
  address := v.address.toNat
  size := 4
  data := leBytes 4 v.data.toNat

/-- Present the record write of ring n (R18). -/
def presentRecord (s : State) (n : Fin 8) : State :=
  { s.setCr n { s.cr n with recordWrite := true } with
    cplLast := n
    port := { s.port with completion := some (recordRequest n (s.cr n)) } }

/-- Present the message write of ring n (R129). -/
def presentMessage (s : State) (n : Fin 8) : State :=
  { s.setCr n { s.cr n with message := .inFlight } with
    cplLast := n
    port := { s.port with completion := some (messageRequest n (s.vectorOf n)) } }

/-- With nothing presented, the Completion Unit presents its next write (R83, R85). -/
def presentCompletion (s : State) : State :=
  match s.port.completion with
  | some _ => s
  | none =>
    match s.nextCompletion with
    | some n => if s.messageAllowed n then presentMessage s n else presentRecord s n
    | none => s

/-! ## Record write answers -/

/-- The unsignalled count and the timer after a written record (R127). -/
def CplRing.signalled (c : CplRing) (rec : CplRecord) (tick : Tick) : CplRing :=
  if rec.noIntr then c
  else { c with
    unsignalled := saturate Config.unsignalledLimit c.unsignalled 1
    timer := if c.unsignalled = 0 then .running tick else c.timer }

/-- The ring after its oldest record is written: removed, the reserved count lowered, the producer index
advanced, the phase toggled on a wrap to 0, and U updated (R18, R127). -/
def CplRing.written (c : CplRing) (tick : Tick) : CplRing :=
  match c.outbound with
  | rec :: rest =>
    let p := (c.producer + 1) % c.size
    { c with
      outbound := rest
      reserved := c.reserved - 1
      producer := p
      phase := if p = 0 then !c.phase else c.phase
      recordWrite := false }.signalled rec tick
  | [] => { c with recordWrite := false }

/-- The oldest record is discarded: it leaves the list, its reservation is released, the discarded count
rises (R19, R20, R21). -/
def CplRing.discardOldest (c : CplRing) : CplRing :=
  match c.outbound with
  | _ :: rest =>
    { c with
      outbound := rest
      reserved := c.reserved - 1
      discarded := saturate Config.countLimit c.discarded 1 }
  | [] => c

/-- The ring FAULTED, with every record of its outbound list discarded (R19, R21). -/
def CplRing.faultedRing (c : CplRing) : CplRing :=
  { c with
    state := .faulted
    outbound := []
    reserved := c.reserved - c.outbound.length
    discarded := saturate Config.countLimit c.discarded c.outbound.length
    recordWrite := false }

/-- A record write whose ring was reset while it was in flight retires: its record is counted as
discarded, whatever the answer (R20). -/
def CplRing.retired (c : CplRing) : CplRing :=
  { c.discardOldest with recordWrite := false, resetWrite := false }

/-- A record write of ring n is answered with success (R18, R20, R141). -/
def recordWritten (s : State) (n : Fin 8) : State :=
  if s.leftWrite n then s.setLeftWrite n false
  else if (s.cr n).resetWrite then abortFinish (s.setCr n (s.cr n).retired)
  else abortFinish (s.setCr n ((s.cr n).written s.time.tick))

/-- A record write of ring n is answered with an error, or timed out (R19, R20, R141): the ring is
FAULTED and CR_WRITE reported, or for CR0 ADMIN_WRITE with the halt of R161. -/
def recordFailed (s : State) (n : Fin 8) : State :=
  if s.leftWrite n then s.setLeftWrite n false
  else if (s.cr n).resetWrite then abortFinish (s.setCr n (s.cr n).retired)
  else
    let a := (s.cr n).writeAddress
    let s1 := s.setCr n (s.cr n).faultedRing
    if n = 0 then halt (reportFault s1 .adminWrite 0 a)
    else abortFinish (reportFault s1 .crWrite (n.castLE (by decide)) a)

/-! ## Message write answers -/

/-- The ring after its message is answered: U 0, disarmed, timer absent, and a held arm applied, which
only sets the armed flag (R130). -/
def CplRing.messaged (c : CplRing) : CplRing :=
  { c with
    unsignalled := 0
    armed := c.message = .inFlightArmHeld
    timer := .absent
    message := .none }

/-- A message write of ring n is answered with success (R130, R133, R141). -/
def messageWritten (s : State) (n : Fin 8) : State :=
  if s.leftWrite n then s.setLeftWrite n false
  else if (s.cr n).resetWrite then s.setCr n { s.cr n with message := .none, resetWrite := false }
  else s.setCr n (s.cr n).messaged

/-- A message write of ring n is answered with an error, or timed out: as a success, and MSG_WRITE is
reported with the address the message was issued to (R131, R133, R141). -/
def messageFailed (s : State) (n : Fin 8) (address : Nat) : State :=
  if s.leftWrite n then s.setLeftWrite n false
  else if (s.cr n).resetWrite then s.setCr n { s.cr n with message := .none, resetWrite := false }
  else reportFault (s.setCr n (s.cr n).messaged) .msgWrite (n.castLE (by decide)) address

/-! ## Arming and the timer -/

/-- An arm is taken on a ring (R132). -/
def CplRing.arm (c : CplRing) (tick : Tick) : CplRing :=
  match c.message with
  | .none =>
    { c with armed := true, timer := if 0 < c.unsignalled then .running tick else c.timer }
  | _ => { c with message := .inFlightArmHeld }

/-- The running coalesce timer of ring n has reached a non-zero coalesce time (R128). -/
def State.timerDue (s : State) (n : Fin 8) : Bool :=
  match (s.cr n).timer with
  | .running start =>
    (s.cr n).coalesceTime ≠ 0 && (s.cr n).coalesceTime ≤ s.elapsedSince start
  | _ => false

/-- The timer as elapsed. -/
def Timer.elapse : Timer → Timer
  | .running start => .elapsed start
  | other => other

end Sys2Proof.Machine
end

