-- ==== Sys2Proof/Machine/Dispatcher.lean ====
section
/-! DEFINITION. The Dispatcher and the start of a segment: candidates and the best of them (R49 to R52),
dispatch (R53), push, pop and removal (R56 to R58), the decisions (a) and (c) (R59, R62, R63), and the
lane's presentation of units (R72 to R75). -/

namespace Sys2Proof.Machine

/-! ## Starting a segment (R72, R74, R75) -/

/-- Place and value of the first unit not yet presented. -/
def nextWaiting : List TransferUnit → Option (Nat × TransferUnit)
  | [] => none
  | u :: us =>
    if u.state = .waiting then some (0, u) else (nextWaiting us).map (fun p => (p.1 + 1, p.2))

/-- A unit list with unit k in a new state. -/
def setUnit : List TransferUnit → Nat → UnitState → List TransferUnit
  | [], _, _ => []
  | u :: us, 0, st => { u with state := st } :: us
  | u :: us, k + 1, st => u :: setUnit us k st

/-- The lane presents its next unit, a read in READING or a write in WRITING, while the segment has no
fault (R74, R75). -/
def presentUnit (s : State) : State :=
  match s.disp.active, s.lane.segment, s.lane.state, s.lane.fault with
  | some c, some g, .reading, .none =>
    match nextWaiting g.reads with
    | some (k, u) =>
      { s with
        lane := { s.lane with segment := some { g with reads := setUnit g.reads k .presented } }
        port := { s.port with lane := some (readRequest c g k u) } }
    | none => s
  | some c, some g, .writing, .none =>
    match nextWaiting g.writes with
    | some (k, u) =>
      { s with
        lane := { s.lane with segment := some { g with writes := setUnit g.writes k .presented } }
        port := { s.port with lane := some (writeRequest c g s.lane.buffer1 k u) } }
    | none => s
  | _, _, _, _ => s

/-- The lane plans the next segment of the active context and presents its first unit (R72): READING,
or WRITING for FILL. -/
def startSegment (s : State) : State :=
  match s.disp.active with
  | some c =>
    presentUnit { s with lane := { Lane.cleared with
      state := if c.op = .fill then .writing else .reading
      segment := some (planSegment s.wins s.ctl.segmentSize c) } }
  | none => s

/-! ## Candidates (R49 to R52) -/

/-- The trigger condition of R49: without TRIG_WAIT, or the line holds a credit. -/
def State.triggerReady (s : State) (f : Fields) : Bool :=
  !f.flags.trigWait || 0 < (s.trig f.line).credits

/-- The head of a transfer ring is dispatchable (R49). -/
def State.dispatchable (s : State) (n : Fin 16) : Bool :=
  let r := s.sr n
  n ≠ 0 && r.state = .active && !r.dispatched && (s.cr r.bound).state = .active &&
  s.ctl.engine = .running &&
  match r.head with
  | .transfer h =>
    match h.settlement with
    | .execute _ => s.triggerReady h.fields
    | .settled _ _ => false
  | _ => false

/-- Another transfer ring of the same level has its chain carry OPEN (R50). -/
def State.excluded (s : State) (n : Fin 16) : Bool :=
  transferSr.any (fun x => x ≠ n && (s.sr x).carry.isOpen && (s.sr x).level = (s.sr n).level)

/-- A candidate is a head that is dispatchable and not excluded (R50). -/
def State.candidate (s : State) (n : Fin 16) : Bool := s.dispatchable n && !s.excluded n

/-- A candidate of level p. -/
def State.candidateAt (s : State) (p : Fin 8) (n : Fin 16) : Bool :=
  s.candidate n && (s.sr n).level = p

/-- The best candidate of level p: the head of a ring with an OPEN chain, else the first of the
round-robin search (R51, R52). -/
def State.bestAt (s : State) (p : Fin 8) : Option (Fin 16) :=
  match transferSr.find? (fun n => s.candidateAt p n && (s.sr n).carry.isOpen) with
  | some n => some n
  | none => (rotate transferSr (s.pointer p)).find? (s.candidateAt p)

/-- The best candidate: that of the most urgent level that has one (R51). -/
def State.best (s : State) : Option (Fin 16) :=
  match all8.find? (fun p => transferSr.any (s.candidateAt p)) with
  | some p => s.bestAt p
  | none => none

/-! ## Dispatch, push, pop (R53, R56, R57) -/

/-- The context record formed at dispatch (Table 3.3, R30, R39). -/
def newContext (n : Fin 16) (r : SubRing) (h : HeadCmd) (op : Opcode) : Context where
  ring := n
  op := op
  fields := h.fields
  continuation := h.continuation
  level := r.level
  total := totalLength op h.fields
  bytesDone := 0
  row := 0
  rowOffset := 0
  crc := initialCrc h.fields h.continuation r.carry
  expiry := if h.fields.budget = 0 then none else some (h.admitted + BitVec.ofNat 32 h.fields.budget)
  late := h.late
  preempted := false
  substituted := false
  request := none

/-- Take one credit from a TRIG_WAIT command's line (R53, R116). -/
def takeCredit (s : State) (f : Fields) : State :=
  if f.flags.trigWait then
    s.setTrig f.line { s.trig f.line with credits := (s.trig f.line).credits - 1 }
  else s

/-- Steps 1 to 5 of R53, but for the start of the first segment: the head slot empties, the dispatched
marker is set, the context becomes active, a TRIG_WAIT command takes its credit, the round-robin pointer
of the context level names the ring. -/
def dispatch (s : State) (n : Fin 16) : State :=
  let r := s.sr n
  match r.head with
  | .transfer h =>
    match h.settlement with
    | .execute op =>
      let s1 := takeCredit (s.setSr n { r with head := .empty, dispatched := true }) h.fields
      { s1.moveWatch n .head .active with
        disp := { s1.disp with
          active := some (newContext n r h op)
          pointers := s1.disp.pointers.set r.level n } }
    | .settled _ _ => s
  | _ => s

/-- Push the active context c on the suspension stack with PREEMPTED set; the lane is IDLE (R56). -/
def push (s : State) (c : Context) : State :=
  { s.moveWatch c.ring .active .suspended with
    disp := { s.disp with active := none, stack := { c with preempted := true } :: s.disp.stack }
    lane := .cleared }

/-- Pop the top of the stack and start its next segment (R57). -/
def resumeTop (s : State) : State :=
  match s.disp.stack with
  | c :: rest =>
    startSegment { s.moveWatch c.ring .suspended .active with
      disp := { s.disp with active := some c, stack := rest } }
  | [] => s

/-! ## End of the active command (R62) -/

/-- The active command c leaves the lane with a final outcome: steps 1 to 4 of R62, and the closing of an
ABORT_SR that waited for it (R148). -/
def endActive (s : State) (c : Context) (status : Status) (result : Word32) : State :=
  closeAbort (endDispatched
    { s with disp := { s.disp with active := none }, lane := .cleared } c status result)

/-- After a dispatch: a command with segments starts its first segment; a MARK ends in the same event with
the tick as its result, and `next` decides again (R37, R63). -/
def startOrMark (next : State → State) (s : State) : State :=
  match s.disp.active with
  | some c => if c.op = .mark then next (endActive s c .success s.time.tick) else startSegment s
  | none => s

/-- Decision (c) (R62): the best candidate B against the top of the stack A. The fuel bounds the MARKs
that one event may dispatch one after another (R63); sixteen are more than there are transfer rings. -/
def decisionC : Nat → State → State
  | 0, s => s
  | k + 1, s =>
    match s.best, s.disp.stack with
    | none, [] => s
    | none, _ :: _ => resumeTop s
    | some n, [] => startOrMark (decisionC k) (dispatch s n)
    | some n, a :: _ =>
      if (s.sr n).level < a.level then startOrMark (decisionC k) (dispatch s n) else resumeTop s

/-- Fuel of a decision. -/
def markFuel : Nat := 16

/-- Decision (a) (R59): in RUNNING, with no active context and a candidate present. -/
def decisionA (s : State) : State :=
  if s.ctl.engine = .running && s.disp.active.isNone && s.best.isSome then decisionC markFuel s else s

/-- Step 5 of R62: in RUNNING decision (c), in PAUSING the pause point, else nothing (R66, R68). -/
def afterEnd (s : State) : State :=
  match s.ctl.engine with
  | .running => decisionC markFuel s
  | .pausing => s.setEngine .paused
  | _ => s

/-- Decision (b) at a boundary that does not end the active command c (R60, R64), the pause point of
PAUSING (R66), and in HALTED the lane HELD (R82). -/
def decisionB (s : State) (c : Context) : State :=
  match s.ctl.engine with
  | .running =>
    if c.fields.flags.noPreempt then startSegment s
    else match s.best with
      | some n =>
        if (s.sr n).level < c.level then startOrMark (decisionC markFuel) (dispatch (push s c) n)
        else startSegment s
      | none => startSegment s
  | .pausing =>
    if c.fields.flags.noPreempt then startSegment s else (push s c).setEngine .paused
  | _ => { s with lane := { Lane.cleared with state := .held } }

/-! ## Removal from the stack (R58) -/

/-- Take the suspended context c out of the stack, the others keeping their order, and produce its
completion (R58). No decision is taken. -/
def removeSuspended (s : State) (c : Context) (status : Status) : State :=
  endDispatched
    { s with disp := { s.disp with stack := s.disp.stack.filter (fun d => d.ring ≠ c.ring) } }
    c status 0

end Sys2Proof.Machine
end

