-- ==== Sys2Proof/Machine/Fetch.lean ====
section
/-! DEFINITION. The Ring Fetch Unit: the start of an admission (R8, R9), the presentation of fetches
(R85), the placement of a fetched record (R10, R41, R42) and a failed fetch (R11). -/

namespace Sys2Proof.Machine

/-- Every condition of R8 holds for ring n. -/
def State.eligible (s : State) (n : Fin 16) : Bool :=
  let r := s.sr n
  let c := s.cr r.bound
  r.state = .active && r.producer ≠ r.consumer && r.head.isEmpty && !r.fetchInFlight &&
  c.state = .active && c.hasFree && s.works

/-- It is ring n's turn to take a reservation: among the eligible rings bound to its completion ring it
is the first after the last taker. SR0 has CR0 to itself (R9). -/
def State.takesNext (s : State) (n : Fin 16) : Bool :=
  n = 0 ||
  (rotate transferSr (s.cr (s.sr n).bound).lastTaker).find?
    (fun x => (s.sr x).bound = (s.sr n).bound && s.eligible x) = some n

/-- The read transaction of a ring's record fetch (R8). -/
def fetchRequest (n : Fin 16) (r : SubRing) : Request where
  kind := .recordFetch n
  address := r.fetchAddress
  size := 64
  data := []

/-- With nothing presented, the Ring Fetch Unit presents the next waiting fetch of its rotation (R85). -/
def presentFetch (s : State) : State :=
  match s.port.ringFetch with
  | some _ => s
  | none =>
    match (rotate allSr s.fetchLast).find? (fun n => (s.sr n).fetchQueued) with
    | some n =>
      { s.setSr n { s.sr n with fetchQueued := false } with
        fetchLast := n
        port := { s.port with ringFetch := some (fetchRequest n (s.sr n)) } }
    | none => s

/-- The admission of R8 begins on ring n: one reservation is taken, the fetch-in-flight marker is set and
the fetch is requested. CR0 keeps no taker to rotate by (R9). -/
def beginAdmission (s : State) (n : Fin 16) : State :=
  let r := s.sr n
  let c := s.cr r.bound
  let s1 := s.setCr r.bound { c with
    reserved := c.reserved + 1
    lastTaker := if n = 0 then c.lastTaker else n }
  presentFetch (s1.setSr n { r with fetchInFlight := true, fetchQueued := true })

/-- The settlement of a fetched transfer record (R10, R41, R42). -/
def settlementOf (r : Line) (link : ChainLink) : Settlement :=
  match link with
  | .broken => .settled .skipped 0
  | .unlinked =>
    match validate r false with
    | .execute op => .execute op
    | .invalid why => .settled .invalid (BitVec.ofNat 32 why.code)
  | .linked =>
    match validate r true with
    | .execute op => .execute op
    | .invalid why => .settled .invalid (BitVec.ofNat 32 why.code)

/-- The command is to execute. -/
def Settlement.toExecute : Settlement → Bool
  | .execute _ => true
  | .settled _ _ => false

/-- The chain link for the next record (Table 2.9). -/
def linkAfter (st : Settlement) (chain : Bool) : ChainLink :=
  if chain then (if st.toExecute then .linked else .broken) else .unlinked

/-- The command built from a fetched transfer record (R10, R23). -/
def headOf (r : Line) (link : ChainLink) (tick : Tick) : HeadCmd where
  fields := decodeFields r
  continuation := link ≠ .unlinked
  admitted := tick
  settlement := settlementOf r link
  late := false

/-- The five steps of R10 on a transfer ring: stamp, settle, place, advance the consumer index, clear the
marker; the chain link follows (R41) and a command to execute with a budget is watched (R104). -/
def placeTransfer (s : State) (n : Fin 16) (record : Line) : State :=
  let r := s.sr n
  let h := headOf record r.link s.time.tick
  let s1 := s.setSr n { r with
    head := .transfer h
    consumer := (r.consumer + 1) % r.size
    fetchInFlight := false
    link := linkAfter h.settlement h.fields.flags.chain }
  if h.settlement.toExecute then s1.watchHead n h.fields.budget else s1

/-- What follows a change of a ring's head slot or markers in one event: a settled head drains, a pending
level is applied, an ABORT_SR closes, decision (a) is taken. -/
def settleRing (s : State) (n : Fin 16) : State :=
  decisionA (closeAbort (applyPending (drainHead s n) n))

/-- An SR0 record is placed in the SR0 head slot as a command to execute, unvalidated (R7, R10). -/
def placeAdmin (s : State) (record : Line) : State :=
  let r := s.sr 0
  s.setSr 0 { r with
    head := .admin record s.time.tick
    consumer := (r.consumer + 1) % r.size
    fetchInFlight := false }

/-- The state of a ring whose fetch failed (R11). -/
def SrState.afterFetchError : SrState → SrState
  | .aborting => .aborting
  | _ => .faulted

/-- A fetch that fails under ABORT_SR makes FAULTED the noted end state (R147). -/
def AdminState.afterFetchError (a : AdminState) (n : Fin 16) : AdminState :=
  match a with
  | .abortMarkers x e => .abortMarkers x (e || x = n)
  | other => other

/-- A fetch that fails releases the reservation, leaves the consumer index, clears the marker, faults the
ring and reports SR_FETCH, or for SR0 ADMIN_FETCH with the halt of R161 (R7, R11). -/
def failFetch (s : State) (n : Fin 16) : State :=
  let r := s.sr n
  let c := s.cr r.bound
  let s1 := s.setCr r.bound { c with reserved := c.reserved - 1 }
  let s2 := s1.setSr n { r with fetchInFlight := false, state := r.state.afterFetchError }
  let s3 := { s2 with admin := s2.admin.afterFetchError n }
  if n = 0 then halt (reportFault s3 .adminFetch 0 r.fetchAddress)
  else decisionA (closeAbort (reportFault s3 .srFetch n r.fetchAddress))

end Sys2Proof.Machine
end

