-- ==== Sys2Proof/Machine/Admin.lean ====
section
/-! DEFINITION. The Admin Unit: the checks of R138, the effect of each of the sixteen commands (R140 to
R157), the records of QUERY (Table 11.11) and IDENTIFY (Table 11.12), and the execution of a fetched SR0
record in its admission event (R137). -/

namespace Sys2Proof.Machine

/-- The second and third checks of R138 end a command BAD_FIELD; else it goes on (R138, R174). -/
def adminChecked (op : AdminOp) (r : Line) (ranges : Bool) (s : State) (body : State) : State :=
  if unusedClear op r && ranges then body else finishAdmin s .badField 0

/-- The completion ring a command names. -/
def crId (r : Line) (off : Nat) : Fin 8 := finOf 8 (byteAt r off)

/-- The submission ring a command names. -/
def srId (r : Line) : Fin 16 := finOf 16 (byteAt r 12)

/-- A completion ring id lies in 1..7 (Table 9.1). -/
def crIdFits (r : Line) (off : Nat) : Bool := 1 ≤ byteAt r off && byteAt r off ≤ 7

/-- A submission ring id lies in 1..15 (Table 9.1). -/
def srIdFits (r : Line) : Bool := 1 ≤ byteAt r 12 && byteAt r 12 ≤ 15

/-- The eight-byte value at an offset, as a vector address is stored. -/
def wordAt64 (r : Line) (off : Nat) : BitVec 64 := BitVec.ofNat 64 (fieldAt r off 8)

/-- The four-byte value at an offset. -/
def wordAt32 (r : Line) (off : Nat) : Word32 := BitVec.ofNat 32 (fieldAt r off 4)

/-! ## Completion rings -/

/-- The ring CREATE_CR creates (R140, Table 8.6). -/
def createdCr (r : Line) : CplRing :=
  { CplRing.cleared with
    state := .active
    base := fieldAt r 16 8
    log2 := byteAt r 13
    phase := true
    vector := ⟨bitAt r 26 0, wordAt64 r 28, wordAt32 r 36⟩
    threshold := byteAt r 14
    coalesceTime := fieldAt r 24 2
    armed := true }

/-- CREATE_CR (R140). -/
def runCreateCr (r : Line) (s : State) : State :=
  adminChecked .createCr r
    (crIdFits r 12 && log2Fits (byteAt r 13) && 1 ≤ byteAt r 14 &&
      alignedFit (fieldAt r 16 8) (2 ^ byteAt r 13 * 16) &&
      vectorFits (bitAt r 26 0) (fieldAt r 28 8)) s
    (if (s.cr (crId r 12)).state ≠ .absent then finishAdmin s .ringExists 0
     else finishAdmin (s.setCr (crId r 12) (createdCr r)) .ok 0)

/-- Some submission ring that exists is bound to completion ring n. -/
def State.isBound (s : State) (n : Fin 8) : Bool :=
  transferSr.any (fun x => (s.sr x).state ≠ .absent && (s.sr x).bound = n)

/-- A write of the ring is presented or outstanding. -/
def CplRing.writing (c : CplRing) : Bool := c.recordWrite || c.message ≠ .none

/-- The ring is deleted; a write of it in flight leaves its marker (R141). -/
def deletedCr (s : State) (n : Fin 8) : State :=
  (s.setLeftWrite n (s.leftWrite n || (s.cr n).writing)).setCr n .cleared

/-- DELETE_CR (R141). -/
def runDeleteCr (r : Line) (s : State) : State :=
  adminChecked .deleteCr r (crIdFits r 12) s
    (if (s.cr (crId r 12)).state = .absent then finishAdmin s .noRing 0
     else if s.isBound (crId r 12) then finishAdmin s .inUse 0
     else finishAdmin (deletedCr s (crId r 12)) .ok 0)

/-- The ring after RESET_CR (R151): the reserved count, the outbound list, the vector, the threshold and
the time are kept; a write in flight only retires (R20, R133). -/
def CplRing.resetRing (c : CplRing) : CplRing :=
  { c with
    state := .active
    producer := 0
    consumer := 0
    phase := true
    unsignalled := 0
    armed := true
    timer := .absent
    message := if c.message = .none then .none else .inFlight
    resetWrite := c.writing
    discarded := 0 }

/-- RESET_CR (R151). -/
def runResetCr (r : Line) (s : State) : State :=
  adminChecked .resetCr r (crIdFits r 12) s
    (if (s.cr (crId r 12)).state = .absent then finishAdmin s .noRing 0
     else finishAdmin (s.setCr (crId r 12) (s.cr (crId r 12)).resetRing) .ok
       (s.cr (crId r 12)).discarded)

/-! ## Submission rings -/

/-- The ring CREATE_SR creates (R142). -/
def createdSr (r : Line) : SubRing :=
  { SubRing.cleared with
    state := if bitAt r 24 0 then .paused else .active
    base := fieldAt r 16 8
    log2 := byteAt r 13
    bound := crId r 15
    level := finOf 8 (byteAt r 14) }

/-- CREATE_SR (R142). -/
def runCreateSr (r : Line) (s : State) : State :=
  adminChecked .createSr r
    (srIdFits r && log2Fits (byteAt r 13) && byteAt r 14 ≤ 7 && crIdFits r 15 &&
      alignedFit (fieldAt r 16 8) (2 ^ byteAt r 13 * 64)) s
    (if (s.sr (srId r)).state ≠ .absent then finishAdmin s .ringExists 0
     else if (s.cr (crId r 15)).state = .absent then finishAdmin s .noRing 0
     else finishAdmin (s.setSr (srId r) (createdSr r)) .ok 0)

/-- The ring is PAUSED or FAULTED, its head slot empty and both its markers clear (R143, R150). -/
def SubRing.quiet (r : SubRing) : Bool :=
  (r.state = .paused || r.state = .faulted) && r.head.isEmpty && !r.fetchInFlight && !r.dispatched

/-- DELETE_SR (R143). -/
def runDeleteSr (r : Line) (s : State) : State :=
  adminChecked .deleteSr r (srIdFits r) s
    (if (s.sr (srId r)).state = .absent then finishAdmin s .noRing 0
     else if !(s.sr (srId r)).quiet then finishAdmin s .wrongState 0
     else finishAdmin (s.setSr (srId r) .cleared) .ok 0)

/-- SET_LEVEL (R48, R144). -/
def runSetLevel (r : Line) (s : State) : State :=
  let n := srId r
  let l : Fin 8 := finOf 8 (byteAt r 14)
  adminChecked .setLevel r (srIdFits r && byteAt r 14 ≤ 7) s
    (if (s.sr n).state = .absent then finishAdmin s .noRing 0
     else if s.chainInProgress n then
       finishAdmin (s.setSr n { s.sr n with pendingLevel := some l }) .ok 1
     else finishAdmin (s.setSr n { s.sr n with level := l }) .ok 0)

/-- The transfer rings a bitmap names (R173). -/
def namedRings (bitmap : Nat) : List (Fin 16) := transferSr.filter (fun n => bitmap.testBit n.val)

/-- The named rings that are in a state, in ascending order. -/
def State.namedIn (s : State) (bitmap : Nat) (st : SrState) : List (Fin 16) :=
  (namedRings bitmap).filter (fun n => (s.sr n).state = st)

/-- The bitmap of a list of rings. -/
def bitmapOf (ns : List (Fin 16)) : Nat := ns.foldl (fun v n => v + 2 ^ n.val) 0

/-- Put every ring of a list in a state. -/
def setStates (st : SrState) (s : State) (ns : List (Fin 16)) : State :=
  ns.foldl (fun s n => s.setSr n { s.sr n with state := st }) s

/-- PAUSE_SR (R145): ABORTING is refused, ACTIVE becomes PAUSED. -/
def runPauseSr (r : Line) (s : State) : State :=
  let b := fieldAt r 12 2
  adminChecked .pauseSr r true s
    (if s.namedIn b .absent ≠ [] then finishAdmin s .noRing 0
     else if s.namedIn b .aborting ≠ [] then finishAdmin s .wrongState 0
     else finishAdmin (setStates .paused s (s.namedIn b .active)) .ok (bitmapOf (s.namedIn b .active)))

/-- RESUME_SR (R145): FAULTED and ABORTING are refused, PAUSED becomes ACTIVE. -/
def runResumeSr (r : Line) (s : State) : State :=
  let b := fieldAt r 12 2
  adminChecked .resumeSr r true s
    (if s.namedIn b .absent ≠ [] then finishAdmin s .noRing 0
     else if s.namedIn b .aborting ≠ [] || s.namedIn b .faulted ≠ [] then finishAdmin s .wrongState 0
     else finishAdmin (setStates .active s (s.namedIn b .paused)) .ok (bitmapOf (s.namedIn b .paused)))

/-- A termination request is recorded on a context that carries none (R61). -/
def Context.requested (c : Context) (q : TermRequest) : Context :=
  { c with request := match c.request with
      | some p => some p
      | none => some q }

/-- Step 3 of R146: a suspended context of the ring is removed, an active one gets a termination
request. -/
def abortDispatched (s : State) (n : Fin 16) : State :=
  match s.disp.active with
  | some c =>
    if c.ring = n then { s with disp := { s.disp with active := some (c.requested .aborted) } }
    else match s.disp.stack.find? (fun d => d.ring = n) with
      | some d => removeSuspended s d .aborted
      | none => s
  | none =>
    match s.disp.stack.find? (fun d => d.ring = n) with
    | some d => removeSuspended s d .aborted
    | none => s

/-- ABORT_SR in its execution event (R146), and its closing if both markers are clear (R148). -/
def runAbortSr (r : Line) (s : State) : State :=
  let n := srId r
  adminChecked .abortSr r (srIdFits r) s
    (if (s.sr n).state = .absent then finishAdmin s .noRing 0
     else
       let s1 := { s.setSr n { s.sr n with state := .aborting } with
         admin := .abortMarkers n ((s.sr n).state = .faulted) }
       closeAbort (if (s.sr n).dispatched then abortDispatched s1 n else s1))

/-- RESET_SR (R150). -/
def runResetSr (r : Line) (s : State) : State :=
  let n := srId r
  adminChecked .resetSr r (srIdFits r) s
    (if (s.sr n).state = .absent then finishAdmin s .noRing 0
     else if !(s.sr n).quiet then finishAdmin s .wrongState 0
     else
       let s1 := applyPending (s.setSr n { s.sr n with
         producer := 0, consumer := 0, link := .unlinked, carry := .closed }) n
       finishAdmin (s1.setSr n { s1.sr n with state := .paused }) .ok (s.sr n).waiting)

/-! ## Windows, trigger lines, engine parameters -/

/-- The window SET_WINDOW writes (R91). -/
def configuredWindow (r : Line) : Window where
  enabled := bitAt r 13 0
  locked := bitAt r 13 1
  matchBase := fieldAt r 16 8
  matchLength := fieldAt r 32 8
  substituteBase := fieldAt r 24 8
  count := 0

/-- The bounds of R90 and the range of the match length (R91, R152). -/
def windowFits (r : Line) : Bool :=
  byteAt r 12 ≤ 7 && 1 ≤ fieldAt r 32 8 && fieldAt r 32 8 ≤ 2 ^ 32 &&
  fieldAt r 16 8 + fieldAt r 32 8 ≤ Config.addressLimit &&
  fieldAt r 24 8 + fieldAt r 32 8 ≤ Config.addressLimit

/-- SET_WINDOW (R91, R152). -/
def runSetWindow (r : Line) (s : State) : State :=
  adminChecked .setWindow r (windowFits r) s
    (if (s.win (crId r 12)).locked then finishAdmin s .locked 0
     else finishAdmin (s.setWin (crId r 12) (configuredWindow r)) .ok 0)

/-- CLEAR_WINDOW (R92, R152): the result is the count before the clear. -/
def runClearWindow (r : Line) (s : State) : State :=
  adminChecked .clearWindow r (byteAt r 12 ≤ 7) s
    (if (s.win (crId r 12)).locked then finishAdmin s .locked 0
     else finishAdmin (s.setWin (crId r 12) .cleared) .ok (s.win (crId r 12)).count)

/-- A trigger line after SET_TRIGGER: the filtered level stays (R120). -/
def TriggerLine.configured (t : TriggerLine) (edge : EdgeSelect) (filterLength : Nat) : TriggerLine where
  edge := edge
  filterLength := filterLength
  filtered := t.filtered
  runCount := 0
  credits := 0
  overrun := false

/-- SET_TRIGGER (R120, R153). -/
def runSetTrigger (r : Line) (s : State) : State :=
  match edgeSelectOf (byteAt r 13) with
  | none => finishAdmin s .badField 0
  | some edge =>
    adminChecked .setTrigger r (byteAt r 12 ≤ 7 && byteAt r 14 ≤ 15) s
      (finishAdmin (s.setTrig (crId r 12) ((s.trig (crId r 12)).configured edge (byteAt r 14))) .ok 0)

/-- The segment size is one of the four (R154). -/
def segmentSizeFits (n : Nat) : Bool := n = 64 || n = 128 || n = 256 || n = 512

/-- Engine Control with the five parameters of SET_ENGINE; disabling the fault vector drops the owed
messages (R154, R170). -/
def Control.withParameters (c : Control) (r : Line) : Control :=
  { c with
    segmentSize := fieldAt r 12 2
    responseTimeout := fieldAt r 14 2
    tickDivider := fieldAt r 16 2
    faultVector := ⟨bitAt r 18 0, wordAt64 r 20, wordAt32 r 28⟩
    crVector := ⟨bitAt r 18 1, wordAt64 r 32, wordAt32 r 40⟩
    owed := if bitAt r 18 0 then c.owed else 0 }

/-- SET_ENGINE (R154). -/
def runSetEngine (r : Line) (s : State) : State :=
  adminChecked .setEngine r
    (segmentSizeFits (fieldAt r 12 2) && vectorFits (bitAt r 18 0) (fieldAt r 20 8) &&
      vectorFits (bitAt r 18 1) (fieldAt r 32 8)) s
    (finishAdmin { s with ctl := s.ctl.withParameters r } .ok 0)

/-! ## QUERY and IDENTIFY (R155 to R157, R175) -/

/-- The result record of a QUERY: header and fields (R175). -/
def queryLayout (kind id : Nat) (fields : List (Nat × Nat × Nat)) : Line :=
  layout ((0, 1, kind) :: (1, 1, id) :: fields)

/-- Value of an optional CRC, 0 when absent. -/
def crcValue : Option Word32 → Nat
  | some c => c.toNat
  | none => 0

/-- Head slot code: 0 empty, 1 to execute, 2 settled, 3 in execution. -/
def Head.code : Head → Nat
  | .empty => 0
  | .transfer h => if h.settlement.toExecute then 1 else 2
  | .admin _ _ => 3

/-- Status of a settled head, else 0. -/
def Head.statusCode : Head → Nat
  | .transfer h =>
    match h.settlement with
    | .settled status _ => status.code
    | .execute _ => 0
  | _ => 0

/-- Head tag, 0 for an empty slot. -/
def Head.tag : Head → Nat
  | .empty => 0
  | .transfer h => h.fields.tag.toNat
  | .admin r _ => (recordTag r).toNat

/-- Head trigger wait: bit 7 TRIG_WAIT, bits 2:0 the line (Table 11.11), as decoded from the record. For a
head settled SKIPPED at admission R172 has no field but the tag and CHAIN examined, while R10 and R23 take
every field: that the byte reports the decoded fields there is the model's choice (DESIGN CHOICE,
assumption 14). -/
def Head.trigger : Head → Nat
  | .transfer h => 2 ^ 7 * bit h.fields.flags.trigWait + h.fields.line.val
  | _ => 0

/-- Head LATE mark. -/
def Head.late : Head → Bool
  | .transfer h => h.late
  | _ => false

/-- Pending level: bit 7 present, bits 2:0 value. -/
def pendingCode : Option (Fin 8) → Nat
  | some l => 2 ^ 7 + l.val
  | none => 0

/-- The ring's dispatched command: 0 none, 1 active, 2 suspended, with its position from the bottom. -/
def State.dispatchedPlace (s : State) (n : Fin 16) : Nat × Nat :=
  if s.disp.active.any (fun c => c.ring = n) then (1, 0)
  else match s.disp.stack.reverse.findIdx? (fun c => c.ring = n) with
    | some i => (2, i)
    | none => (0, 0)

/-- QUERY of kind SR (Table 11.11). -/
def querySr (s : State) (n : Fin 16) : Line :=
  let r := s.sr n
  let place := s.dispatchedPlace n
  if r.state = .absent then queryLayout 0 n.val []
  else queryLayout 0 n.val
    [(4, 1, r.state.code), (5, 1, r.log2), (6, 1, r.level.val), (7, 1, pendingCode r.pendingLevel),
     (8, 8, r.base), (16, 2, r.producer), (18, 2, r.consumer), (20, 1, r.bound.val),
     (21, 1, r.head.code), (22, 1, r.head.statusCode), (23, 1, r.head.trigger), (24, 2, r.head.tag),
     (26, 1, bit r.head.late), (27, 1, bit r.fetchInFlight + 2 * bit r.dispatched),
     (28, 1, place.1), (29, 1, place.2), (30, 1, r.link.code),
     (31, 1, bit r.carry.isOpen + 2 * bit r.carry.carried.isSome), (32, 4, crcValue r.carry.carried)]

/-- Timer code and start tick (Table 11.11). -/
def Timer.codes : Timer → Nat × Nat
  | .absent => (0, 0)
  | .running t => (1, t.toNat)
  | .elapsed t => (2, t.toNat)

/-- Message write code (Table 11.11). -/
def MessageWrite.code : MessageWrite → Nat
  | .none => 0
  | .inFlight => 1
  | .inFlightArmHeld => 2

/-- QUERY of kind CR (Table 11.11). -/
def queryCr (s : State) (n : Fin 8) : Line :=
  let c := s.cr n
  let v := s.vectorOf n
  if c.state = .absent then queryLayout 1 n.val []
  else queryLayout 1 n.val
    [(4, 1, c.state.code), (5, 1, c.log2), (6, 1, bit c.phase + 2 * bit c.armed + 4 * bit v.enabled),
     (7, 1, c.threshold), (8, 8, c.base), (16, 2, c.producer), (18, 2, c.consumer),
     (20, 2, c.reserved), (22, 2, c.outbound.length), (24, 8, v.address.toNat), (32, 4, v.data.toNat),
     (36, 2, c.coalesceTime), (38, 2, c.unsignalled), (40, 1, c.timer.codes.1),
     (41, 1, c.message.code), (44, 4, c.timer.codes.2), (48, 4, c.discarded)]

/-- QUERY of kind window (Table 11.11). -/
def queryWindow (s : State) (n : Fin 8) : Line :=
  let w := s.win n
  queryLayout 2 n.val
    [(4, 1, bit w.enabled + 2 * bit w.locked), (8, 8, w.matchBase), (16, 8, w.matchLength),
     (24, 8, w.substituteBase), (32, 4, w.count)]

/-- QUERY of kind trigger (Table 11.11). -/
def queryTrigger (s : State) (n : Fin 8) : Line :=
  let t := s.trig n
  queryLayout 3 n.val
    [(4, 1, t.edge.code), (5, 1, t.filterLength), (6, 1, bit t.filtered), (7, 1, t.credits),
     (8, 1, bit t.overrun)]

/-- Ring, level, tag and bytes done of the active context, 0 when absent (R175). -/
def activeCodes : Option Context → Nat × Nat × Nat × Nat
  | some c => (c.ring.val, c.level.val, c.fields.tag.toNat, c.bytesDone)
  | none => (0, 0, 0, 0)

/-- The ring ids of the stack entries, the bottom at byte 28 (Table 11.11). -/
def stackFields (stack : List Context) : List (Nat × Nat × Nat) :=
  stack.reverse.zipIdx.map (fun p => (28 + p.2, 1, p.1.ring.val))

/-- QUERY of kind engine (Table 11.11). -/
def queryEngine (s : State) : Line :=
  let e := s.ctl
  let a := activeCodes s.disp.active
  queryLayout 4 0
    ([(4, 1, e.engine.code), (5, 1, bit s.adminBusy), (6, 2, e.segmentSize), (8, 4, s.time.tick.toNat),
      (12, 2, e.responseTimeout), (14, 2, e.tickDivider),
      (16, 1, bit e.faultVector.enabled + 2 * bit e.crVector.enabled + 4 * bit s.disp.active.isSome),
      (17, 1, s.disp.stack.length), (18, 1, a.1), (19, 1, a.2.1), (20, 2, a.2.2.1),
      (22, 1, s.port.outstanding.length), (23, 1, s.port.abandoned.length), (24, 4, a.2.2.2)] ++
     stackFields s.disp.stack ++
     [(36, 8, e.faultVector.address.toNat), (44, 4, e.faultVector.data.toNat),
      (48, 8, e.crVector.address.toNat), (56, 4, e.crVector.data.toNat)])

/-- The result record of a QUERY of a kind and id. -/
def queryRecord (s : State) (kind id : Nat) : Line :=
  match kind with
  | 0 => querySr s (finOf 16 id)
  | 1 => queryCr s (finOf 8 id)
  | 2 => queryWindow s (finOf 8 id)
  | 3 => queryTrigger s (finOf 8 id)
  | _ => queryEngine s

/-- The ids of a QUERY kind (R155): below this bound. -/
def queryIds : Nat → Nat
  | 0 => 16
  | 1 => 8
  | 2 => 8
  | 3 => 8
  | 4 => 1
  | _ => 0

/-- The capability record of IDENTIFY (Table 11.12). -/
def identifyRecord : Line :=
  layout [(0, 2, Config.familyCode), (2, 2, Config.revision), (4, 1, 8), (5, 1, 16), (6, 1, 8), (7, 1, 8),
    (8, 1, 8), (9, 1, 48), (10, 2, 4096), (12, 1, 0x0F), (13, 1, Config.maxOutstanding),
    (14, 2, Config.noPreemptLimit), (16, 4, 0x00FFFFFF)]

/-- The Admin Unit presents a 64-byte result write and waits for its answer (R155). -/
def presentResult (s : State) (record : Line) (address : Nat) : State :=
  { s with
    admin := .resultWrite record address none
    port := { s.port with admin := some ⟨.resultWrite, address, 64, record.toList⟩ } }

/-- QUERY (R155). -/
def runQuery (r : Line) (s : State) : State :=
  adminChecked .query r (byteAt r 13 < queryIds (byteAt r 12) && alignedFit (fieldAt r 16 8) 64) s
    (presentResult s (queryRecord s (byteAt r 12) (byteAt r 13)) (fieldAt r 16 8))

/-- IDENTIFY (R157). -/
def runIdentify (r : Line) (s : State) : State :=
  adminChecked .identify r (alignedFit (fieldAt r 16 8) 64) s
    (presentResult s identifyRecord (fieldAt r 16 8))

/-- A result write is answered: OK or BUFFER_FAULT; in HALTED the answer is recorded and nothing is
produced (R139, R155). -/
def resultAnswered (s : State) (ok : Bool) : State :=
  match s.admin with
  | .resultWrite record address _ =>
    if s.works then finishAdmin s (if ok then .ok else .bufferFault) 0
    else { s with admin := .resultWrite record address (some ok) }
  | _ => s

/-! ## Execution in the admission event (R137, R138) -/

/-- The effect of the command a record names; an opcode that is not one of the sixteen ends UNKNOWN. -/
def runAdmin (op : Option AdminOp) (r : Line) (s : State) : State :=
  match op with
  | none => finishAdmin s .unknown 0
  | some .createCr => runCreateCr r s
  | some .deleteCr => runDeleteCr r s
  | some .createSr => runCreateSr r s
  | some .deleteSr => runDeleteSr r s
  | some .setLevel => runSetLevel r s
  | some .pauseSr => runPauseSr r s
  | some .resumeSr => runResumeSr r s
  | some .abortSr => runAbortSr r s
  | some .resetSr => runResetSr r s
  | some .resetCr => runResetCr r s
  | some .setWindow => runSetWindow r s
  | some .clearWindow => runClearWindow r s
  | some .setTrigger => runSetTrigger r s
  | some .setEngine => runSetEngine r s
  | some .query => runQuery r s
  | some .identify => runIdentify r s

/-- An SR0 fetch returns a record: it is placed in the SR0 head slot and, in RUNNING, PAUSING or PAUSED
with no command in execution, taken and executed by `run` in the same event (R10, R137); the event may
take decision (a) (R59). -/
def adminFetched (record : Line) (run : State → State) (s : State) : State :=
  let s1 := placeAdmin s record
  if s1.works && s1.admin = .idle then decisionA (run { s1 with admin := .taken }) else s1

end Sys2Proof.Machine
end

