-- ==== Sys2Proof/Machine/Control.lean ====
section
/-! DEFINITION. Engine Control: the soft reset and its drain (R163, R164), power-on reset (R166), the
enable (R159), PAUSE (R160), the decoding of DEVCTL (R158) and the NOTIFY updates (R3 to R5, R132). -/

namespace Sys2Proof.Machine

/-! ## Resets (R100, R121, R164) -/

/-- A window at the end of a soft reset: kept when locked, else cleared (R100). -/
def Window.afterSoftReset (w : Window) : Window := if w.locked then w else .cleared

/-- A trigger line at the end of a soft reset: the filtered level carries on (R121). -/
def TriggerLine.afterSoftReset (t : TriggerLine) : TriggerLine :=
  { TriggerLine.cleared with filtered := t.filtered }

/-- Engine Control at the end of a soft reset: the administrative registers are kept (Table 10.4). -/
def Control.afterSoftReset (c : Control) : Control :=
  { Control.cleared with srBase := c.srBase, crBase := c.crBase, srLog2 := c.srLog2, crLog2 := c.crLog2 }

/-- Every block at its soft reset values, the engine OFF (R164). -/
def softResetValues (s : State) : State where
  ctl := s.ctl.afterSoftReset
  srs := Vector.replicate 16 .cleared
  fetchLast := 15
  crs := Vector.replicate 8 .cleared
  cplLast := 7
  leftWrites := Vector.replicate 8 false
  disp := .cleared
  lane := .cleared
  wins := s.wins.map Window.afterSoftReset
  trigs := s.trigs.map TriggerLine.afterSoftReset
  time := { s.time with watch := [] }
  admin := .idle
  port := { Port.cleared with abandoned := s.port.abandoned }
  pending := s.pending

/-- In RESETTING the drain completes in the event in which the outstanding list is empty (R89, R164). -/
def drainCheck (s : State) : State :=
  if s.ctl.engine = .resetting && s.port.outstanding.isEmpty then softResetValues s else s

/-- Every presented request of every requester is withdrawn (R163). DESIGN CHOICE: the marks of writes in
flight, the fault message write of Table 10.1 among them, stay as they are until the drain ends (log
entry 25). -/
def withdrawAll (s : State) : State :=
  let s1 := withdrawLane s
  { s1 with port := { s1.port with ringFetch := none, completion := none, admin := none, control := none } }

/-- A soft reset request (R163), ignored in RESETTING (R158); with nothing outstanding the drain
completes in the same event (R164). -/
def softReset (s : State) : State :=
  if s.ctl.engine = .resetting then s else drainCheck ((withdrawAll s).setEngine .resetting)

/-- Power-on reset: every block at its power-on values (R166). The queue of waiting commands is not the
engine's. -/
def powerOn (s : State) : State := { State.reset with pending := s.pending }

/-! ## Enable (R22, R159) -/

/-- SR0 as initialised at the enable (R22). -/
def initialSr0 (c : Control) : SubRing :=
  { SubRing.cleared with state := .active, base := c.srBase.toNat, log2 := c.srLog2.toNat }

/-- CR0 as initialised at the enable (R22, Table 8.6): armed, phase 1, threshold 1, coalesce time 0. -/
def initialCr0 (c : Control) : CplRing :=
  { CplRing.cleared with
    state := .active
    base := c.crBase.toNat
    log2 := c.crLog2.toNat
    phase := true
    threshold := 1
    armed := true }

/-- Checks 1 to 3 of R159. -/
def Control.srValid (c : Control) : Bool :=
  log2Fits c.srLog2.toNat && alignedFit c.srBase.toNat (2 ^ c.srLog2.toNat * 64)

/-- Checks 4 to 6 of R159. -/
def Control.crValid (c : Control) : Bool :=
  log2Fits c.crLog2.toNat && alignedFit c.crBase.toNat (2 ^ c.crLog2.toNat * 16)

/-- An enable taken in OFF with the given PAUSE (R159). PAUSE is taken whether or not the administrative
registers pass (R158, step 3; log entry 10). DESIGN CHOICE: the PAUSE of the enabling write alone decides
(step 3, Table 10.2), and a PAUSE stored before in OFF, which R158 says acts at the enable, does not (log
entry 24). -/
def enableEngine (s : State) (pauseBit : Bool) : State :=
  let s1 := { s with ctl := { s.ctl with pauseBit := pauseBit } }
  if !s.ctl.srValid then reportFault s1 .adminConfig 0 s.ctl.srBase.toNat
  else if !s.ctl.crValid then reportFault s1 .adminConfig 0 s.ctl.crBase.toNat
  else
    let s2 := (s1.setSr 0 (initialSr0 s.ctl)).setCr 0 (initialCr0 s.ctl)
    { s2 with ctl := { s2.ctl with enable := true, engine := if pauseBit then .paused else .running } }

/-! ## PAUSE (R160) -/

/-- PAUSE is taken (R160). -/
def takePause (s : State) (pauseBit : Bool) : State :=
  let s1 := { s with ctl := { s.ctl with pauseBit := pauseBit } }
  match s.ctl.engine, pauseBit with
  | .running, true =>
    if s.disp.active.isSome then s1.setEngine .pausing else s1.setEngine .paused
  | .pausing, false => s1.setEngine .running
  | .paused, false => decisionC markFuel (s1.setEngine .running)
  | _, _ => s1

/-- A DEVCTL write, decoded whole in the order of R158; ignored in RESETTING. -/
def writeDevctl (s : State) (enableBit pauseBit sresetBit : Bool) : State :=
  if s.ctl.engine = .resetting then s
  else if sresetBit then softReset s
  else if s.ctl.enable && !enableBit then softReset s
  else if s.ctl.engine = .off && !s.ctl.enable && enableBit then enableEngine s pauseBit
  else takePause s pauseBit

/-! ## NOTIFY (R3 to R5) -/

/-- NOTIFY is decoded in RUNNING, PAUSING, PAUSED and HALTED (R3). -/
def State.decodesNotify (s : State) : Bool := s.works || s.ctl.engine = .halted

/-- A submission tail update (R4). -/
def tailUpdate (s : State) (n : Fin 16) (index : Nat) : State :=
  if !s.decodesNotify then s
  else if (s.sr n).state = .absent then reportFault s .notifyAbsent n index
  else if (s.sr n).size ≤ index then reportFault s .notifyRange n index
  else s.setSr n { s.sr n with producer := index }

/-- INDEX lies in the cyclic range from the old consumer index to the producer index (R5). -/
def CplRing.takesHead (c : CplRing) (index : Nat) : Bool :=
  index < c.size && indexDiff c.size index c.consumer ≤ indexDiff c.size c.producer c.consumer

/-- A completion head update (R5), with its arm (R132). -/
def headUpdate (s : State) (n : Fin 16) (index : Nat) (arm : Bool) : State :=
  if !s.decodesNotify then s
  else if h : n.val < 8 then
    let k : Fin 8 := ⟨n.val, h⟩
    let c := s.cr k
    if c.state = .absent then reportFault s .notifyAbsent n index
    else if !c.takesHead index then reportFault s .notifyRange n index
    else
      let c1 := { c with consumer := index }
      s.setCr k (if arm then c1.arm s.time.tick else c1)
  else reportFault s .notifyRange n index

/-- A FAULT write with VALID 1 clears VALID and MORE; kind, ring and address stay (R169). -/
def clearFault (s : State) : State :=
  { s with ctl := { s.ctl with capture := { s.ctl.capture with valid := false, more := false } } }

end Sys2Proof.Machine
end

