-- ==== Sys2Proof/Machine/LaneAnswers.lean ====
section
/-! DEFINITION. The Transfer Lane's answers: read units (R74, R96), write units (R75) and the segment
boundary with its clean, read-faulted and write-faulted outcomes (R77 to R80). -/

namespace Sys2Proof.Machine

/-! ## The segment boundary (R77 to R80) -/

/-- The context after a clean segment: the running CRC over its source bytes, bytes done and the
two-dimensional position (R78, steps 2 and 3). -/
def Context.advance (c : Context) (n : Nat) (bytes : List Byte) : Context :=
  let rowEnd := c.rowOffset + n = c.fields.rowLength
  { c with
    crc := c.crc.map (fun x => crcRun x bytes)
    bytesDone := c.bytesDone + n
    row := if c.op = .copy2d && rowEnd then c.row + 1 else c.row
    rowOffset := if c.op = .copy2d then (if rowEnd then 0 else c.rowOffset + n) else c.rowOffset }

/-- Result of a SUCCESS: the final CRC with CRC, else 0 (Table 2.7). -/
def Context.successResult (c : Context) : Word32 :=
  match c.crc with
  | some x => crcFinal x
  | none => 0

/-- The difference a COMPARE finds in its segment, as an offset within the segment (R36, R78). -/
def segmentDifference (c : Context) (g : Segment) (l : Lane) : Option Nat :=
  if c.op = .compare then firstDifference (l.buffer1.take g.length) (l.buffer2.take g.length) else none

/-- The status and result with which the command ends at a clean boundary, if it ends: Table 4.5, the
first row that holds. `c` is the context after the segment. -/
def cleanEnd (c : Context) (g : Segment) (difference : Option Nat) : Option (Status × Word32) :=
  match difference with
  | some d => some (.mismatch, BitVec.ofNat 32 (g.start + d))
  | none =>
    if c.bytesDone = c.total then some (.success, c.successResult)
    else match c.request with
      | some q => some (q.status, 0)
      | none => none

/-- The segment boundary of the active command c (R77): by the segment fault, clean (R78), read-faulted
(R79) or write-faulted (R80). -/
def boundaryOf (s : State) (c : Context) (g : Segment) : State :=
  match s.lane.fault with
  | .read => afterEnd (endActive s c .readFault 0)
  | .write => afterEnd (endActive s c .writeFault 0)
  | .none =>
    let c1 := c.advance g.length (s.lane.buffer1.take g.length)
    let s1 := { s with disp := { s.disp with active := some c1 } }
    match cleanEnd c1 g (segmentDifference c g s.lane) with
    | some (status, result) => afterEnd (endActive s1 c1 status result)
    | none => decisionB s1 c1

/-- The segment boundary, when a segment is in flight. -/
def boundary (s : State) : State :=
  match s.disp.active, s.lane.segment with
  | some c, some g => boundaryOf s c g
  | _, _ => s

/-! ## Answers -/

/-- No unit of the list is presented or granted and unanswered. -/
def unitsAnswered (us : List TransferUnit) : Bool :=
  us.all (fun u => u.state ≠ .presented && u.state ≠ .granted)

/-- READING ends when the last granted read is answered and none is presented: at the boundary after a
fault or without writes, else in WRITING with the first write presented (R74). -/
def endReading (s : State) : State :=
  match s.lane.segment with
  | some g =>
    if unitsAnswered g.reads then
      if s.lane.fault = .none && g.writes ≠ [] then
        presentUnit { s with lane := { s.lane with state := .writing } }
      else boundary s
    else s
  | none => s

/-- WRITING ends when the last granted write is answered and none is presented (R75). -/
def endWriting (s : State) : State :=
  match s.lane.segment with
  | some g => if unitsAnswered g.writes then boundary s else s
  | none => s

/-- A successful read under a window mapping is counted: the window's count rises by the unit's bytes and
the active context is marked SUBSTITUTED (R96). -/
def countSubstituted (s : State) (m : Mapping) (bytes : Nat) : State :=
  match m with
  | .own => s
  | .window i _ _ =>
    let w := s.win i
    let s1 := s.setWin i { w with count := saturate Config.countLimit w.count bytes }
    { s1 with disp := { s1.disp with
        active := s1.disp.active.map (fun c => { c with substituted := true }) } }

/-- The lane with the bytes of a unit in the buffer of its input (R74). -/
def Lane.store (l : Lane) (u : TransferUnit) (bytes : List Byte) : Lane :=
  if u.second then { l with buffer2 := putBytes l.buffer2 (64 * u.index) bytes }
  else { l with buffer1 := putBytes l.buffer1 (64 * u.index) bytes }

/-- The lane with read unit k of segment g in a new state. -/
def Lane.withRead (l : Lane) (g : Segment) (k : Nat) (st : UnitState) : Lane :=
  { l with segment := some { g with reads := setUnit g.reads k st } }

/-- The lane with write unit k of segment g in a new state. -/
def Lane.withWrite (l : Lane) (g : Segment) (k : Nat) (st : UnitState) : Lane :=
  { l with segment := some { g with writes := setUnit g.writes k st } }

/-- Read unit k is answered (R74): a success fills the buffer and is counted under a window mapping, or
is absorbed once the segment has faulted; an error sets the segment fault READ and withdraws a presented
read. -/
def readAnswered (s : State) (k : Nat) (a : ReadAnswer) : State :=
  match s.lane.segment with
  | some g =>
    match g.reads[k]? with
    | some u =>
      match a with
      | .success data =>
        let s1 := { s with lane := s.lane.withRead g k .success }
        if s.lane.fault = .none then
          let n := unitLength g.length u.index
          let s2 := { s1 with lane := s1.lane.store u (data.toList.take n) }
          endReading (countSubstituted s2 (if u.second then g.map2 else g.map1) n)
        else endReading s1
      | .error =>
        endReading (withdrawLane { s with lane := { s.lane.withRead g k .error with fault := .read } })
    | none => s
  | none => s

/-- Write unit k is answered (R75): a success is acknowledged; an error sets the segment fault WRITE and
withdraws a presented write. -/
def writeAnswered (s : State) (k : Nat) (ok : Bool) : State :=
  match s.lane.segment with
  | some g =>
    if ok then endWriting { s with lane := s.lane.withWrite g k .success }
    else endWriting (withdrawLane { s with lane := { s.lane.withWrite g k .error with fault := .write } })
  | none => s

end Sys2Proof.Machine
end

