-- ==== Sys2Proof/Machine/Port.lean ====
section
/-! DEFINITION. The Memory Port: the rotation and the grant (R84, R86), the delivery of answers (R87), the
response timeout and late responses (R88). -/

namespace Sys2Proof.Machine

/-! ## Grant (R84) -/

/-- The rotation order of R84 after the requester last granted. -/
def Requester.after : Requester → List Requester
  | .ringFetch => [.lane, .completion, .admin, .control, .ringFetch]
  | .lane => [.completion, .admin, .control, .ringFetch, .lane]
  | .completion => [.admin, .control, .ringFetch, .lane, .completion]
  | .admin => [.control, .ringFetch, .lane, .completion, .admin]
  | .control => [.ringFetch, .lane, .completion, .admin, .control]

/-- The request a requester has presented. -/
def Port.presented (p : Port) : Requester → Option Request
  | .ringFetch => p.ringFetch
  | .lane => p.lane
  | .completion => p.completion
  | .admin => p.admin
  | .control => p.control

/-- The port with a requester's presented request taken. -/
def Port.take (p : Port) : Requester → Port
  | .ringFetch => { p with ringFetch := none }
  | .lane => { p with lane := none }
  | .completion => { p with completion := none }
  | .admin => { p with admin := none }
  | .control => { p with control := none }

/-- The requester of a transaction (Table 4.8). -/
def TransactionKind.requester : TransactionKind → Requester
  | .recordFetch _ => .ringFetch
  | .readUnit _ => .lane
  | .writeUnit _ => .lane
  | .completionWrite _ => .completion
  | .messageWrite _ => .completion
  | .resultWrite => .admin
  | .faultMessage => .control

/-- The requester that is granted next: the first after the pointer with a request presented (R84). -/
def Port.next (p : Port) : Option Requester :=
  p.pointer.after.find? (fun q => (p.presented q).isSome)

/-- The identifier is held by an outstanding or an abandoned transaction (R86). -/
def Port.held (p : Port) (id : Fin 32) : Bool :=
  p.outstanding.any (fun t => t.id = id) || p.abandoned.contains id

/-- The conditions of a grant that takes identifier `id` (R84, R86). -/
def State.canGrant (s : State) (id : Fin 32) : Bool :=
  s.port.outstanding.length < Config.maxOutstanding && !s.port.held id && s.ctl.engine ≠ .resetting

/-- The granted unit of the lane is recorded in its segment (Table 4.1). -/
def Lane.granted (l : Lane) (k : TransactionKind) : Lane :=
  match l.segment, k with
  | some g, .readUnit i => l.withRead g i .granted
  | some g, .writeUnit i => l.withWrite g i .granted
  | _, _ => l

/-- Issue a requester's request under an identifier: it becomes outstanding with the present tick, and
the pointer names the requester (R84). -/
def issue (s : State) (q : Requester) (req : Request) (id : Fin 32) : State :=
  { s with
    lane := s.lane.granted req.kind
    port := { s.port.take q with
      outstanding := s.port.outstanding ++ [⟨id, s.time.tick, req⟩]
      pointer := q } }

/-- The granted requester presents its next request, if it has one (R83). -/
def presentNext (s : State) (q : Requester) : State :=
  match q with
  | .ringFetch => presentFetch s
  | .lane => presentUnit s
  | .completion => presentCompletion s
  | .admin => s
  | .control => s

/-- One grant (R84). -/
def grant (s : State) (id : Fin 32) : State :=
  if s.canGrant id then
    match s.port.next with
    | some q =>
      match s.port.presented q with
      | some req => presentNext (issue s q req id) q
      | none => s
    | none => s
  else s

/-! ## Answers (R87, R88) -/

/-- The outstanding transaction of an identifier. -/
def Port.find (p : Port) (id : Fin 32) : Option Transaction := p.outstanding.find? (fun t => t.id = id)

/-- Remove the outstanding entry of an identifier, which frees it (R87). -/
def State.retire (s : State) (id : Fin 32) : State :=
  { s with port := { s.port with outstanding := s.port.outstanding.filter (fun t => t.id ≠ id) } }

/-- Free an abandoned identifier (R88). -/
def State.freeAbandoned (s : State) (id : Fin 32) : State :=
  { s with port := { s.port with abandoned := s.port.abandoned.filter (fun x => x ≠ id) } }

/-- An answer to the transaction of `id`: `act` gives its effect, or none where the transaction is of
another kind. The entry leaves the list and its identifier is free (R87); in RESETTING the answer is
ignored and the drain may complete (R89); a response on an abandoned identifier is late and only frees it
(R88); one that no transaction awaits is a fault. -/
def answer (s : State) (id : Fin 32) (act : Request → Option (State → State)) :
    Host.Outcome State Fault Refusal :=
  match s.port.find id with
  | some t =>
    match act t.request with
    | some f =>
      if s.ctl.engine = .resetting then .next (drainCheck (s.retire id)) else .next (f (s.retire id))
    | none => .fault .answerMismatch
  | none => if s.port.abandoned.contains id then .next (s.freeAbandoned id) else .fault .spuriousResponse

/-- A fault message write is answered: one fewer is owed and none is in flight (R170). -/
def faultMessaged (s : State) : State :=
  { s with ctl := { s.ctl with owed := s.ctl.owed - 1, faultWrite := false } }

/-- The delivery of an error to the requester of a transaction, from the interconnect or from the
response timeout (Table 4.8). -/
def deliverError (req : Request) (s : State) : State :=
  match req.kind with
  | .recordFetch n => failFetch s n
  | .readUnit k => readAnswered s k .error
  | .writeUnit k => writeAnswered s k false
  | .completionWrite n => recordFailed s n
  | .messageWrite n => messageFailed s n req.address
  | .resultWrite => resultAnswered s false
  | .faultMessage => faultMessaged s

/-- A record fetch returns a record: an SR0 record is executed in the same event (R10, R137). -/
def fetched (n : Fin 16) (record : Line) (s : State) : State :=
  if n = 0 then adminFetched record (runAdmin (recordAdminOp record) record) s
  else settleRing (placeTransfer s n record) n

/-- An outstanding transaction has reached the response timeout (R88). -/
def State.timedOut (s : State) (t : Transaction) : Bool :=
  s.ctl.responseTimeout ≠ 0 && s.ctl.responseTimeout ≤ s.elapsedSince t.issued

/-- The timeout of `id`: the entry leaves the list, the identifier stays held as abandoned, the requester
gets an error (R88); in RESETTING the drain may complete instead (R89). -/
def abandon (s : State) (t : Transaction) : State :=
  let s1 := s.retire t.id
  let s2 := { s1 with port := { s1.port with abandoned := s1.port.abandoned ++ [t.id] } }
  if s.ctl.engine = .resetting then drainCheck s2 else deliverError t.request s2

end Sys2Proof.Machine
end

