-- ==== Sys2Proof/Machine/AdminRows.lean ====
section
/-! DEFINITION. The administrative commands of the table: each is the event in which the outstanding SR0
fetch returns the record and the Admin Unit takes and executes it (R137: the execution event is the
admission event of the record). -/

namespace Sys2Proof.Machine

/-- The outstanding fetch of SR0; at most one, its fetch-in-flight marker being set (R8). -/
def Port.adminFetch (p : Port) : Option Transaction :=
  p.outstanding.find? (fun t => t.request.kind = .recordFetch 0)

/-- The SR0 fetch returns a record whose effect is `run`: the transaction retires (R87), the record is
placed and executed (R10, R137). In HALTED it is placed and not taken (R139), in RESETTING ignored (R12).
Without an outstanding SR0 fetch the event is not taken. -/
def adminArrives (record : Line) (run : State → State) (s : State) : State :=
  match s.port.adminFetch with
  | some t =>
    if s.ctl.engine = .resetting then drainCheck (s.retire t.id)
    else adminFetched record run (s.retire t.id)
  | none => s

/-- One administrative row: `run` is the effect of its command. Which command a record names is the
record's own opcode (R138): a record of another opcode runs as the command it names. -/
def adminRow (op : Option AdminOp) (record : Line) (run : State → State) (s : State) :
    Host.Outcome State Fault Refusal :=
  .next (adminArrives record
    (if recordAdminOp record = op then run else runAdmin (recordAdminOp record) record) s)

/-- ADMIN_UNKNOWN (R138). -/
def execAdminUnknown (record : Line) (s : State) : Host.Outcome State Fault Refusal :=
  adminRow none record (fun t => finishAdmin t .unknown 0) s

/-- CREATE_CR (R140). -/
def execCreateCr (record : Line) (s : State) : Host.Outcome State Fault Refusal :=
  adminRow (some .createCr) record (runCreateCr record) s

/-- DELETE_CR (R141). -/
def execDeleteCr (record : Line) (s : State) : Host.Outcome State Fault Refusal :=
  adminRow (some .deleteCr) record (runDeleteCr record) s

/-- CREATE_SR (R142). -/
def execCreateSr (record : Line) (s : State) : Host.Outcome State Fault Refusal :=
  adminRow (some .createSr) record (runCreateSr record) s

/-- DELETE_SR (R143). -/
def execDeleteSr (record : Line) (s : State) : Host.Outcome State Fault Refusal :=
  adminRow (some .deleteSr) record (runDeleteSr record) s

/-- SET_LEVEL (R48, R144). -/
def execSetLevel (record : Line) (s : State) : Host.Outcome State Fault Refusal :=
  adminRow (some .setLevel) record (runSetLevel record) s

/-- PAUSE_SR (R145). -/
def execPauseSr (record : Line) (s : State) : Host.Outcome State Fault Refusal :=
  adminRow (some .pauseSr) record (runPauseSr record) s

/-- RESUME_SR (R145). -/
def execResumeSr (record : Line) (s : State) : Host.Outcome State Fault Refusal :=
  adminRow (some .resumeSr) record (runResumeSr record) s

/-- ABORT_SR (R146 to R149). -/
def execAbortSr (record : Line) (s : State) : Host.Outcome State Fault Refusal :=
  adminRow (some .abortSr) record (runAbortSr record) s

/-- RESET_SR (R150). -/
def execResetSr (record : Line) (s : State) : Host.Outcome State Fault Refusal :=
  adminRow (some .resetSr) record (runResetSr record) s

/-- RESET_CR (R151). -/
def execResetCr (record : Line) (s : State) : Host.Outcome State Fault Refusal :=
  adminRow (some .resetCr) record (runResetCr record) s

/-- SET_WINDOW (R91, R152). -/
def execSetWindow (record : Line) (s : State) : Host.Outcome State Fault Refusal :=
  adminRow (some .setWindow) record (runSetWindow record) s

/-- CLEAR_WINDOW (R92, R152). -/
def execClearWindow (record : Line) (s : State) : Host.Outcome State Fault Refusal :=
  adminRow (some .clearWindow) record (runClearWindow record) s

/-- SET_TRIGGER (R120, R153). -/
def execSetTrigger (record : Line) (s : State) : Host.Outcome State Fault Refusal :=
  adminRow (some .setTrigger) record (runSetTrigger record) s

/-- SET_ENGINE (R154). -/
def execSetEngine (record : Line) (s : State) : Host.Outcome State Fault Refusal :=
  adminRow (some .setEngine) record (runSetEngine record) s

/-- QUERY (R155, R156). -/
def execQuery (record : Line) (s : State) : Host.Outcome State Fault Refusal :=
  adminRow (some .query) record (runQuery record) s

/-- IDENTIFY (R157). -/
def execIdentify (record : Line) (s : State) : Host.Outcome State Fault Refusal :=
  adminRow (some .identify) record (runIdentify record) s

end Sys2Proof.Machine
end

