-- ==== Sys2Proof/Machine/Clock.lean ====
section
/-! DEFINITION. The commands of the clock, the timers and the trigger inputs: ticks (R101), expiries (R105
to R108), coalesce timers (R128), trigger samples and counted changes (R113, R114, R117). -/

namespace Sys2Proof.Machine

/-- TICK_ADVANCE (R101): the period in which the prescaler equals or exceeds the tick divider. -/
def execTickAdvance (s : State) : Host.Outcome State Fault Refusal :=
  .next (if s.ctl.tickDivider ≤ s.time.prescaler then
    { s with time := { s.time with prescaler := 0, tick := s.time.tick + 1 } } else s)

/-- PRESCALER_COUNT (R101): a period in which the prescaler is below the tick divider. -/
def execPrescalerCount (s : State) : Host.Outcome State Fault Refusal :=
  .next (if s.time.prescaler < s.ctl.tickDivider then
    { s with time := { s.time with prescaler := s.time.prescaler + 1 } } else s)

/-! ## Expiries -/

/-- Expiries are taken in RUNNING, PAUSING, PAUSED and HALTED (R105, R111). -/
def State.takesExpiry (s : State) : Bool := s.works || s.ctl.engine = .halted

/-- The watch entry has run out: (tick − admission tick) mod 2^32 has reached the budget (R105). -/
def State.expired (s : State) (e : WatchEntry) : Bool := e.budget ≤ s.elapsedSince e.admitted

/-- An expiry reaches a head slot (R106, R45): LATE without ABORT_ON_MISS, else settled DEADLINE_MISSED
with the chain link BROKEN when the command carries CHAIN, and the drain that may follow. -/
def expireHead (s : State) (n : Fin 16) : State :=
  let r := s.sr n
  match r.head with
  | .transfer h =>
    match h.settlement with
    | .execute _ =>
      if h.fields.flags.abortOnMiss then
        settleRing (s.setSr n { r with
          head := .transfer { h with settlement := .settled .deadlineMissed 0 }
          link := if h.fields.flags.chain then .broken else r.link }) n
      else s.setSr n { r with head := .transfer { h with late := true } }
    | .settled _ _ => s
  | _ => s

/-- An expiry reaches the active command (R107). -/
def expireActive (s : State) (n : Fin 16) : State :=
  match s.disp.active with
  | some c =>
    if c.ring = n then
      let d := if c.fields.flags.abortOnMiss then c.requested .deadlineMissed else { c with late := true }
      { s with disp := { s.disp with active := some d } }
    else s
  | none => s

/-- The stack with the LATE mark set on the context of a ring (R108). -/
def markLate (stack : List Context) (n : Fin 16) : List Context :=
  stack.map (fun c => if c.ring = n then { c with late := true } else c)

/-- An expiry reaches a suspended context (R108): LATE, or its removal from the stack. -/
def expireSuspended (s : State) (n : Fin 16) : State :=
  match s.disp.stack.find? (fun c => c.ring = n) with
  | some c =>
    if c.fields.flags.abortOnMiss then closeAbort (removeSuspended s c .deadlineMissed)
    else { s with disp := { s.disp with stack := markLate s.disp.stack n } }
  | none => s

/-- An expiry is delivered to the block that holds the command (R105). -/
def deliverExpiry (s : State) (n : Fin 16) (p : Place) : State :=
  match p with
  | .head => expireHead s n
  | .active => expireActive s n
  | .suspended => expireSuspended s n

/-- The watch entry of a ring at a place. -/
def State.watchEntry (s : State) (n : Fin 16) (p : Place) : Option WatchEntry :=
  s.time.watch.find? (fun e => e.ring = n && e.place = p)

/-- DEADLINE_EXPIRY (R105): the entry leaves the watch list and the expiry goes to the holding block. -/
def execDeadlineExpiry (ring : Fin 16) (place : Place) (s : State) :
    Host.Outcome State Fault Refusal :=
  match s.watchEntry ring place with
  | some e =>
    .next (if s.takesExpiry && s.expired e then deliverExpiry (s.unwatch ring place) ring place else s)
  | none => .next s

/-- COALESCE_TIMER_ELAPSE (R128). -/
def execCoalesceTimerElapse (ring : Fin 8) (s : State) : Host.Outcome State Fault Refusal :=
  .next (if s.timerDue ring then
    s.setCr ring { s.cr ring with timer := (s.cr ring).timer.elapse } else s)

/-! ## Trigger lines -/

/-- An accepted change to `level` is counted under the edge select (Table 7.2). -/
def EdgeSelect.counts (e : EdgeSelect) (level : Bool) : Bool :=
  match e with
  | .none => false
  | .rising => level
  | .falling => !level
  | .both => true

/-- The line after an accepted change: the filtered level takes the sampled value, the run count returns
to 0, and a counted change raises the credits or, at 255, sets the overrun flag (R113, R114). -/
def TriggerLine.accepted (t : TriggerLine) : TriggerLine :=
  let t1 := { t with filtered := !t.filtered, runCount := 0 }
  if t.edge.counts (!t.filtered) then
    if t.credits < Config.creditLimit then { t1 with credits := t.credits + 1 }
    else { t1 with overrun := true }
  else t1

/-- A change is accepted on line n; one that raises the credits from 0 to 1 may take decision (a)
(R114, R117). -/
def acceptChange (s : State) (n : Fin 8) : State :=
  let t := s.trig n
  let s1 := s.setTrig n t.accepted
  if t.edge.counts (!t.filtered) && t.credits = 0 then decisionA s1 else s1

/-- TRIGGER_CHANGE_ACCEPTED (R113): the sample differs from the filtered level and the run count has
reached the filter length. -/
def execTriggerChangeAccepted (line : Fin 8) (s : State) : Host.Outcome State Fault Refusal :=
  .next (if (s.trig line).filterLength ≤ (s.trig line).runCount then acceptChange s line else s)

/-- TRIGGER_SAMPLE (R113): a sample equal to the filtered level returns the run count to 0, one that
differs raises it, and one that completes the run is an accepted change. -/
def execTriggerSample (line : Fin 8) (level : Bool) (s : State) : Host.Outcome State Fault Refusal :=
  let t := s.trig line
  .next (if level = t.filtered then s.setTrig line { t with runCount := 0 }
    else if t.runCount < t.filterLength then s.setTrig line { t with runCount := t.runCount + 1 }
    else acceptChange s line)

end Sys2Proof.Machine
end

