-- ==== Sys2Proof/Machine/Registers.lean ====
section
/-! DEFINITION. The commands of the register target port: NOTIFY writes, DEVCTL writes, FAULT writes, every
other register write (R171), and the power-on reset. -/

namespace Sys2Proof.Machine

/-- SUBMISSION_TAIL_UPDATE (R4): ARM has no effect in it (R3). -/
def execSubmissionTailUpdate (ring : Fin 16) (index : BitVec 12) (_arm : Bool) (s : State) :
    Host.Outcome State Fault Refusal :=
  .next (tailUpdate s ring index.toNat)

/-- COMPLETION_HEAD_UPDATE (R5, R132). -/
def execCompletionHeadUpdate (ring : Fin 16) (index : BitVec 12) (arm : Bool) (s : State) :
    Host.Outcome State Fault Refusal :=
  .next (headUpdate s ring index.toNat arm)

/-- ENABLE (R158, R159): a DEVCTL write with ENABLE 1 and SRESET 0. -/
def execEnable (pauseBit : Bool) (s : State) : Host.Outcome State Fault Refusal :=
  .next (writeDevctl s true pauseBit false)

/-- PAUSE (R160): a DEVCTL write that leaves ENABLE as stored. -/
def execPause (pauseBit : Bool) (s : State) : Host.Outcome State Fault Refusal :=
  .next (writeDevctl s s.ctl.enable pauseBit false)

/-- SOFT_RESET_REQUEST (R158, R163): a DEVCTL write with SRESET 1 or ENABLE 0. Bits that ask for no reset
decode as R158 gives any DEVCTL write. -/
def execSoftResetRequest (enableBit pauseBit sresetBit : Bool) (s : State) :
    Host.Outcome State Fault Refusal :=
  .next (writeDevctl s enableBit pauseBit sresetBit)

/-- FAULT_CLEAR (R169). -/
def execFaultClear (s : State) : Host.Outcome State Fault Refusal := .next (clearFault s)

/-- A 48-bit base register with its low or high register written (Table 11.2). -/
def withLow (b : BitVec 48) (v : Word32) : BitVec 48 := b.extractLsb' 32 16 ++ v

/-- The same for the high register. -/
def withHigh (b : BitVec 48) (v : Word32) : BitVec 48 := v.extractLsb' 0 16 ++ b.extractLsb' 0 32

/-- A write to one of the five administrative registers, stored whole (R171). -/
def Control.store (c : Control) (offset : Nat) (v : Word32) : Control :=
  match offset with
  | 0x10 => { c with srBase := withLow c.srBase v }
  | 0x14 => { c with srBase := withHigh c.srBase v }
  | 0x18 => { c with crBase := withLow c.crBase v }
  | 0x1C => { c with crBase := withHigh c.crBase v }
  | 0x20 => { c with srLog2 := v.extractLsb' 0 4, crLog2 := v.extractLsb' 8 4 }
  | _ => c

/-- A NOTIFY write, decoded by its KIND (1.2). -/
def writeNotify (s : State) (v : Word32) : State :=
  match decodeNotify v with
  | .completionHeadUpdate ring index arm => headUpdate s ring index.toNat arm
  | .submissionTailUpdate ring index _ => tailUpdate s ring index.toNat
  | _ => s

/-- A whole 32-bit write at an offset of the window that is a multiple of 4 (R171): DEVCTL, NOTIFY and
FAULT act as their rules lay down, the administrative registers are stored in OFF, every other offset
ignores the write. -/
def writeRegister (s : State) (offset : Nat) (v : Word32) : State :=
  match offset with
  | 0x04 => writeDevctl s (decodeDevctl v).1 (decodeDevctl v).2.1 (decodeDevctl v).2.2
  | 0x0C => writeNotify s v
  | 0x24 => if v.getLsbD 0 then clearFault s else s
  | _ => if s.ctl.engine = .off then { s with ctl := s.ctl.store offset v } else s

/-- REGISTER_WRITE (R171): an access of another width, or at an offset that is not a multiple of 4, gets
an error response and changes nothing, wherever in the window it begins and ends. -/
def execRegisterWrite (offset width : Nat) (value : Word32) (s : State) :
    Host.Outcome State Fault Refusal :=
  .next (if width = 4 && offset % 4 = 0 then writeRegister s offset value else s)

/-- POWER_ON_RESET (R166). -/
def execPowerOnReset (s : State) : Host.Outcome State Fault Refusal := .next (powerOn s)

end Sys2Proof.Machine
end

