-- ==== Sys2Proof/Machine/Traffic.lean ====
section
/-! DEFINITION. The commands of the memory port: admissions, grants, answers, the presentation of
completion, message and fault message writes, timeouts and late responses. A command whose conditions do
not hold is an event that is not taken: the state is unchanged. -/

namespace Sys2Proof.Machine

/-- ADMISSION_BEGIN (R8, R9): a ring that meets the conditions, in its turn, takes a reservation; any
other begins nothing and reports nothing. -/
def execAdmissionBegin (ring : Fin 16) (s : State) : Host.Outcome State Fault Refusal :=
  .next (if s.eligible ring && s.takesNext ring then beginAdmission s ring else s)

/-- RECORD_FETCH_SUCCESS (R10, and R137 for SR0). -/
def execRecordFetchSuccess (id : Fin 32) (record : Line) (s : State) :
    Host.Outcome State Fault Refusal :=
  answer s id (fun req => match req.kind with
    | .recordFetch n => some (fetched n record)
    | _ => none)

/-- RECORD_FETCH_ERROR (R7, R11). -/
def execRecordFetchError (id : Fin 32) (s : State) : Host.Outcome State Fault Refusal :=
  answer s id (fun req => match req.kind with
    | .recordFetch n => some (fun t => failFetch t n)
    | _ => none)

/-- MEMORY_GRANT (R84): the identifier is any free one; which one the port takes is left open. -/
def execMemoryGrant (id : Fin 32) (s : State) : Host.Outcome State Fault Refusal := .next (grant s id)

/-- READ_UNIT_ANSWER (R74, R77). -/
def execReadUnitAnswer (id : Fin 32) (reply : ReadAnswer) (s : State) :
    Host.Outcome State Fault Refusal :=
  answer s id (fun req => match req.kind with
    | .readUnit k => some (fun t => readAnswered t k reply)
    | _ => none)

/-- WRITE_UNIT_ANSWER (R75, R77). -/
def execWriteUnitAnswer (id : Fin 32) (ok : Bool) (s : State) : Host.Outcome State Fault Refusal :=
  answer s id (fun req => match req.kind with
    | .writeUnit k => some (fun t => writeAnswered t k ok)
    | _ => none)

/-- COMPLETION_WRITE_ISSUE (R18, R85): with nothing presented by the Completion Unit, the ring whose turn
it is presents its oldest record. -/
def execCompletionWriteIssue (ring : Fin 8) (s : State) : Host.Outcome State Fault Refusal :=
  .next (if s.port.completion.isNone && s.nextCompletion = some ring && s.recordAllowed ring then
    presentRecord s ring else s)

/-- COMPLETION_WRITE_ACK (R18, R20, R127, R141). -/
def execCompletionWriteAck (id : Fin 32) (s : State) : Host.Outcome State Fault Refusal :=
  answer s id (fun req => match req.kind with
    | .completionWrite n => some (fun t => recordWritten t n)
    | _ => none)

/-- COMPLETION_WRITE_ERROR (R19, R20, R141). -/
def execCompletionWriteError (id : Fin 32) (s : State) : Host.Outcome State Fault Refusal :=
  answer s id (fun req => match req.kind with
    | .completionWrite n => some (fun t => recordFailed t n)
    | _ => none)

/-- MESSAGE_WRITE_ISSUE (R129, R85): with nothing presented by the Completion Unit, the ring whose turn it
is presents its interrupt message. -/
def execMessageWriteIssue (ring : Fin 8) (s : State) : Host.Outcome State Fault Refusal :=
  .next (if s.port.completion.isNone && s.nextCompletion = some ring && s.messageAllowed ring then
    presentMessage s ring else s)

/-- MESSAGE_WRITE_ACK (R130, R133). -/
def execMessageWriteAck (id : Fin 32) (s : State) : Host.Outcome State Fault Refusal :=
  answer s id (fun req => match req.kind with
    | .messageWrite n => some (fun t => messageWritten t n)
    | _ => none)

/-- MESSAGE_WRITE_ERROR (R131, R133). -/
def execMessageWriteError (id : Fin 32) (s : State) : Host.Outcome State Fault Refusal :=
  answer s id (fun req => match req.kind with
    | .messageWrite n => some (fun t => messageFailed t n req.address)
    | _ => none)

/-- RESULT_WRITE_ANSWER (R155, R157, R139). -/
def execResultWriteAnswer (id : Fin 32) (ok : Bool) (s : State) : Host.Outcome State Fault Refusal :=
  answer s id (fun req => match req.kind with
    | .resultWrite => some (fun t => resultAnswered t ok)
    | _ => none)

/-- The fault message write of the vector in force (R170). -/
def faultRequest (v : IntVector) : Request where
  kind := .faultMessage
  address := v.address.toNat
  size := 4
  data := leBytes 4 v.data.toNat

/-- A fault message may be presented (R170). -/
def State.faultMessageReady (s : State) : Bool :=
  0 < s.ctl.owed && !s.ctl.faultWrite && (s.works || s.ctl.engine = .halted)

/-- FAULT_MESSAGE_ISSUE (R170). -/
def execFaultMessageIssue (s : State) : Host.Outcome State Fault Refusal :=
  .next (if s.faultMessageReady then
    { s with
      ctl := { s.ctl with faultWrite := true }
      port := { s.port with control := some (faultRequest s.ctl.faultVector) } }
    else s)

/-- FAULT_MESSAGE_ANSWER (R170): success and error act alike. -/
def execFaultMessageAnswer (id : Fin 32) (_ok : Bool) (s : State) : Host.Outcome State Fault Refusal :=
  answer s id (fun req => match req.kind with
    | .faultMessage => some faultMessaged
    | _ => none)

/-- TRANSACTION_TIMEOUT (R88): taken once (tick − issue tick) has reached a non-zero timeout. -/
def execTransactionTimeout (id : Fin 32) (s : State) : Host.Outcome State Fault Refusal :=
  match s.port.find id with
  | some t => .next (if s.timedOut t then abandon s t else s)
  | none => .next s

/-- LATE_RESPONSE (R88): the response of an abandoned identifier is discarded and frees it. -/
def execLateResponse (id : Fin 32) (s : State) : Host.Outcome State Fault Refusal :=
  answer s id (fun _ => none)

end Sys2Proof.Machine
end

