-- ==== Sys2Proof/Machine/Dispatch.lean ====
section
/-! DEFINITION. One arm for each command of the table of operations and events: a direct call of its meaning. -/

namespace Sys2Proof.Machine

def exec (i : Instr) (s : State) : Host.Outcome State Fault Refusal :=
  match i with
  | .submissionTailUpdate ring index arm => Sys2Proof.Machine.execSubmissionTailUpdate ring index arm s
  | .completionHeadUpdate ring index arm => Sys2Proof.Machine.execCompletionHeadUpdate ring index arm s
  | .enable pauseBit => Sys2Proof.Machine.execEnable pauseBit s
  | .pause pauseBit => Sys2Proof.Machine.execPause pauseBit s
  | .softResetRequest enableBit pauseBit sresetBit => Sys2Proof.Machine.execSoftResetRequest enableBit pauseBit sresetBit s
  | .faultClear => Sys2Proof.Machine.execFaultClear s
  | .registerWrite offset width value => Sys2Proof.Machine.execRegisterWrite offset width value s
  | .powerOnReset => Sys2Proof.Machine.execPowerOnReset s
  | .admissionBegin ring => Sys2Proof.Machine.execAdmissionBegin ring s
  | .recordFetchSuccess id record => Sys2Proof.Machine.execRecordFetchSuccess id record s
  | .recordFetchError id => Sys2Proof.Machine.execRecordFetchError id s
  | .memoryGrant id => Sys2Proof.Machine.execMemoryGrant id s
  | .readUnitAnswer id reply => Sys2Proof.Machine.execReadUnitAnswer id reply s
  | .writeUnitAnswer id ok => Sys2Proof.Machine.execWriteUnitAnswer id ok s
  | .completionWriteIssue ring => Sys2Proof.Machine.execCompletionWriteIssue ring s
  | .completionWriteAck id => Sys2Proof.Machine.execCompletionWriteAck id s
  | .completionWriteError id => Sys2Proof.Machine.execCompletionWriteError id s
  | .messageWriteIssue ring => Sys2Proof.Machine.execMessageWriteIssue ring s
  | .messageWriteAck id => Sys2Proof.Machine.execMessageWriteAck id s
  | .messageWriteError id => Sys2Proof.Machine.execMessageWriteError id s
  | .resultWriteAnswer id ok => Sys2Proof.Machine.execResultWriteAnswer id ok s
  | .faultMessageIssue => Sys2Proof.Machine.execFaultMessageIssue s
  | .faultMessageAnswer id ok => Sys2Proof.Machine.execFaultMessageAnswer id ok s
  | .transactionTimeout id => Sys2Proof.Machine.execTransactionTimeout id s
  | .lateResponse id => Sys2Proof.Machine.execLateResponse id s
  | .tickAdvance => Sys2Proof.Machine.execTickAdvance s
  | .deadlineExpiry ring place => Sys2Proof.Machine.execDeadlineExpiry ring place s
  | .coalesceTimerElapse ring => Sys2Proof.Machine.execCoalesceTimerElapse ring s
  | .triggerChangeAccepted line => Sys2Proof.Machine.execTriggerChangeAccepted line s
  | .adminUnknown record => Sys2Proof.Machine.execAdminUnknown record s
  | .createCr record => Sys2Proof.Machine.execCreateCr record s
  | .deleteCr record => Sys2Proof.Machine.execDeleteCr record s
  | .createSr record => Sys2Proof.Machine.execCreateSr record s
  | .deleteSr record => Sys2Proof.Machine.execDeleteSr record s
  | .setLevel record => Sys2Proof.Machine.execSetLevel record s
  | .pauseSr record => Sys2Proof.Machine.execPauseSr record s
  | .resumeSr record => Sys2Proof.Machine.execResumeSr record s
  | .abortSr record => Sys2Proof.Machine.execAbortSr record s
  | .resetSr record => Sys2Proof.Machine.execResetSr record s
  | .resetCr record => Sys2Proof.Machine.execResetCr record s
  | .setWindow record => Sys2Proof.Machine.execSetWindow record s
  | .clearWindow record => Sys2Proof.Machine.execClearWindow record s
  | .setTrigger record => Sys2Proof.Machine.execSetTrigger record s
  | .setEngine record => Sys2Proof.Machine.execSetEngine record s
  | .query record => Sys2Proof.Machine.execQuery record s
  | .identify record => Sys2Proof.Machine.execIdentify record s
  | .triggerSample line level => Sys2Proof.Machine.execTriggerSample line level s
  | .prescalerCount => Sys2Proof.Machine.execPrescalerCount s

end Sys2Proof.Machine
end

