-- ==== Sys2Proof/Safety.lean ====
section
/-! DEFINITION. What the statements speak of: a safe step, the invariants that the manual gives the whole
machine (R14, R55, R86, R90, R114), the engine transitions of Table 10.2, and what must be outstanding for a command
to be taken. -/

namespace Sys2Proof.Machine

/-! ## Safe steps -/


/-- A safe step: the command at the front of the queue is taken without a fault or a refusal. -/
def State.safeStep (s : State) : Prop := ∃ t, step s = .next t

/-! ## The Memory Port (R86, R88) -/

/-- The identifiers of the outstanding transactions. -/
def Port.outstandingIds (p : Port) : List (Fin 32) := p.outstanding.map (fun t => t.id)

/-- At most 16 transactions are outstanding, and every held identifier is held once: by one outstanding
transaction or by one abandoned one (R86, R88). -/
def State.PortInv (s : State) : Prop :=
  s.port.outstanding.length ≤ Config.maxOutstanding ∧
  (s.port.outstandingIds ++ s.port.abandoned).Nodup

/-! ## Trigger lines (R113, R114) -/

/-- Credits lie in 0..255, the filter length in 0..15, and the run count does not pass the filter length
(Table 7.1, R113, R114). -/
def TriggerLine.bounded (t : TriggerLine) : Prop :=
  t.credits ≤ Config.creditLimit ∧ t.filterLength ≤ 15 ∧ t.runCount ≤ t.filterLength

/-- Every trigger line is bounded. -/
def State.TriggerInv (s : State) : Prop := ∀ i : Fin 8, (s.trig i).bounded

/-! ## The suspension stack (R55) -/

/-- The levels of the held contexts, the active one first, then the stack from its top down. -/
def Dispatcher.levels (d : Dispatcher) : List (Fin 8) :=
  (d.active.toList ++ d.stack).map (fun c => c.level)

/-- Going up the stack each entry outranks the one below, and the active context outranks the top: the
levels rise strictly from the active context down to the bottom (R55). -/
def State.StackInv (s : State) : Prop := s.disp.levels.Pairwise (fun a b => a < b)

/-! ## Completion space (R14, R15) -/

/-- The contexts held, active and suspended. -/
def Dispatcher.contexts (d : Dispatcher) : List Context := d.active.toList ++ d.stack

/-- How many reservations the commands of a submission ring hold before their completions are produced: one for
the head slot, one for a fetch in flight, one for a dispatched command (R8, R15). -/
def SubRing.holds (r : SubRing) : Nat :=
  (if r.head = .empty then 0 else 1) + (if r.fetchInFlight then 1 else 0) + (if r.dispatched then 1 else 0)

/-- The reservations held for completion ring k by the commands of the rings bound to it. -/
def State.holders (s : State) (k : Fin 8) : Nat :=
  ((allSr.filter (fun n => (s.sr n).bound = k)).map (fun n => (s.sr n).holds)).sum

/-- The record fetches of a ring that are presented or outstanding. -/
def Port.fetches (p : Port) (n : Fin 16) : Nat :=
  ((([p.ringFetch, p.lane, p.completion, p.admin, p.control].filterMap id) ++
    p.outstanding.map (fun t => t.request)).filter (fun q => q.kind = .recordFetch n)).length

/-- Every fetch presented, outstanding or queued belongs to the one admission in flight of its ring, whose head
slot is empty (R8). -/
def State.FetchInv (s : State) : Prop :=
  ∀ n, s.port.fetches n + (if (s.sr n).fetchQueued then 1 else 0) ≤ (if (s.sr n).fetchInFlight then 1 else 0) ∧
    ((s.sr n).fetchInFlight = true → (s.sr n).head = .empty)

/-- The contexts belong to different rings, each with its dispatched marker set (R15, R55). -/
def State.ContextInv (s : State) : Prop :=
  (s.disp.contexts.map (fun c => c.ring)).Nodup ∧ ∀ c ∈ s.disp.contexts, (s.sr c.ring).dispatched = true

/-- The completion space of every ring (R14): the reserved count is the number of its outbound records and of the
commands that hold a reservation of it, and occupied + reserved is at most size − 1 where the ring exists. With it
stands what keeps the count: the fetches and the contexts belong to counted commands, an ABSENT ring holds
nothing, SR0 is bound to CR0 and holds the administrative command in execution, and an engine that is OFF holds
no command. -/
def State.ReservationInv (s : State) : Prop :=
  (∀ k, (s.cr k).reserved = (s.cr k).outbound.length + s.holders k) ∧
  (∀ k, (s.cr k).state ≠ .absent → (s.cr k).occupied + (s.cr k).reserved ≤ (s.cr k).size - 1) ∧
  (∀ k, (s.cr k).state = .absent → (s.cr k).reserved = 0) ∧
  (∀ n, (s.sr n).state = .absent ∨ s.ctl.engine = .off → (s.sr n).holds = 0) ∧
  (s.sr 0).bound = 0 ∧ (s.admin ≠ .idle → ∃ r a, (s.sr 0).head = .admin r a) ∧
  s.FetchInv ∧ s.ContextInv

/-! ## Windows (R90, R98) -/

/-- The five configuration fields of a window are the same (Table 5.1); the count stands beside them. -/
def Window.sameConfig (v w : Window) : Prop :=
  w.enabled = v.enabled ∧ w.locked = v.locked ∧ w.matchBase = v.matchBase ∧
  w.matchLength = v.matchLength ∧ w.substituteBase = v.substituteBase

/-- The bounds every window entry satisfies, configured or cleared (R90). -/
def Window.bounded (w : Window) : Prop :=
  w.matchBase + w.matchLength ≤ Config.addressLimit ∧
  w.substituteBase + w.matchLength ≤ Config.addressLimit

/-- Every window entry satisfies the bounds of R90. -/
def State.WindowInv (s : State) : Prop := ∀ i : Fin 8, (s.win i).bounded

/-! ## Engine states (Table 10.2) -/

/-- The changes of the engine state that Table 10.2 allows in one event, but for power-on reset. A soft
reset request passes through RESETTING to OFF in one event when nothing is outstanding (R164), a resume
may find nothing to do, and a PAUSE of an idle lane passes through PAUSING (R160). -/
def engineMoves (a b : EngineState) : Bool :=
  match a, b with
  | .off, .running | .off, .paused | .off, .resetting => true
  | .running, .pausing | .running, .paused | .running, .halted | .running, .resetting
  | .running, .off => true
  | .pausing, .paused | .pausing, .running | .pausing, .halted | .pausing, .resetting
  | .pausing, .off => true
  | .paused, .running | .paused, .halted | .paused, .resetting | .paused, .off => true
  | .halted, .resetting | .halted, .off => true
  | .resetting, .off => true
  | x, y => x = y

/-! ## What must be outstanding for a command to be taken -/

/-- Transaction t is the outstanding one of its identifier. -/
def State.awaits (s : State) (t : Transaction) : Prop := s.port.find t.id = some t

/-- The SR0 fetch t is outstanding and the Admin Unit may take its record at once: the engine is RUNNING,
PAUSING or PAUSED and no command is in execution (R137). -/
def State.adminReady (s : State) (t : Transaction) : Prop :=
  s.port.adminFetch = some t ∧ s.works = true ∧ s.admin = .idle

/-- The state in which an SR0 record is taken: its fetch retired, the record in the SR0 head slot, the
consumer index past it, the Admin Unit busy (R10, R87, R137). -/
def State.adminTaken (s : State) (t : Transaction) (record : Line) : State :=
  let r := s.sr 0
  { s with
    srs := s.srs.set (0 : Fin 16) { r with
      head := .admin record s.time.tick
      consumer := (r.consumer + 1) % r.size
      fetchInFlight := false }
    port := { s.port with outstanding := s.port.outstanding.filter (fun x => x.id ≠ t.id) }
    admin := .taken }

end Sys2Proof.Machine
end

