-- ==== Sys2Proof/WellFormed.lean ====
section
/-! DEFINITION. Which commands are well formed: an administrative row carries a record of its own
opcode (Table 11.9), a soft reset request is a DEVCTL write that asks for one (R158), and a register
write has bytes and begins in the register window (Table 11.1). Every other operand is a plain index or
word. No command is refused for its form: an ill-formed one is a second spelling of another row's event. -/

namespace Sys2Proof

/-- Well-formedness of a command. -/
def Instr.wellFormed : Instr → Bool
  | .adminUnknown r => recordAdminOp r = none
  | .createCr r => recordAdminOp r = some .createCr
  | .deleteCr r => recordAdminOp r = some .deleteCr
  | .createSr r => recordAdminOp r = some .createSr
  | .deleteSr r => recordAdminOp r = some .deleteSr
  | .setLevel r => recordAdminOp r = some .setLevel
  | .pauseSr r => recordAdminOp r = some .pauseSr
  | .resumeSr r => recordAdminOp r = some .resumeSr
  | .abortSr r => recordAdminOp r = some .abortSr
  | .resetSr r => recordAdminOp r = some .resetSr
  | .resetCr r => recordAdminOp r = some .resetCr
  | .setWindow r => recordAdminOp r = some .setWindow
  | .clearWindow r => recordAdminOp r = some .clearWindow
  | .setTrigger r => recordAdminOp r = some .setTrigger
  | .setEngine r => recordAdminOp r = some .setEngine
  | .query r => recordAdminOp r = some .query
  | .identify r => recordAdminOp r = some .identify
  | .softResetRequest enableBit _ sresetBit => sresetBit || !enableBit
  | .registerWrite offset width _ => decide (0 < width) && decide (offset < 64)
  | .submissionTailUpdate _ _ _ => true
  | .completionHeadUpdate _ _ _ => true
  | .enable _ => true
  | .pause _ => true
  | .faultClear => true
  | .powerOnReset => true
  | .admissionBegin _ => true
  | .recordFetchSuccess _ _ => true
  | .recordFetchError _ => true
  | .memoryGrant _ => true
  | .readUnitAnswer _ _ => true
  | .writeUnitAnswer _ _ => true
  | .completionWriteIssue _ => true
  | .completionWriteAck _ => true
  | .completionWriteError _ => true
  | .messageWriteIssue _ => true
  | .messageWriteAck _ => true
  | .messageWriteError _ => true
  | .resultWriteAnswer _ _ => true
  | .faultMessageIssue => true
  | .faultMessageAnswer _ _ => true
  | .transactionTimeout _ => true
  | .lateResponse _ => true
  | .tickAdvance => true
  | .deadlineExpiry _ _ => true
  | .coalesceTimerElapse _ => true
  | .triggerChangeAccepted _ => true
  | .triggerSample _ _ => true
  | .prescalerCount => true

end Sys2Proof
end

