-- ==== Sys2Proof/Certificates/Slice0/Obligations.lean ====
section
/-! DEFINITION. The statements about the model, each from the rules of the manual: what the queue, the
register port, the admissions, the memory port, the lane, the completion unit, the clock, the trigger lines
and the administrative commands do, and what every step keeps. -/

open Sys2Proof Sys2Proof.Machine

namespace Sys2Proof.Claims

/-- The engine decodes NOTIFY: RUNNING, PAUSING, PAUSED or HALTED (R3). -/
def decodes (s : State) : Prop := s.works = true ∨ s.ctl.engine = .halted

/-- (a − b) mod size for indices of a ring (R2). -/
def apart (size a b : Nat) : Nat := (a + size - b % size) % size

/-- SR0's registers pass checks 1 to 3 of R159. -/
def srChecks (c : Control) : Prop :=
  c.srBase.toNat % 64 = 0 ∧ 1 ≤ c.srLog2.toNat ∧ c.srLog2.toNat ≤ 12 ∧
  c.srBase.toNat + 2 ^ c.srLog2.toNat * 64 ≤ 2 ^ 48

/-- CR0's registers pass checks 4 to 6 of R159. -/
def crChecks (c : Control) : Prop :=
  c.crBase.toNat % 64 = 0 ∧ 1 ≤ c.crLog2.toNat ∧ c.crLog2.toNat ≤ 12 ∧
  c.crBase.toNat + 2 ^ c.crLog2.toNat * 16 ≤ 2 ^ 48

/-- The two states differ at most in submission ring n and completion ring k. -/
def onlyRings (s t : State) (n : Fin 16) (k : Fin 8) : Prop :=
  (∀ m, m ≠ n → t.sr m = s.sr m) ∧ (∀ j, j ≠ k → t.cr j = s.cr j)

/-- The blocks that neither an admission nor a completion write touches. -/
def sameBlocks (s t : State) : Prop :=
  t.disp = s.disp ∧ t.lane = s.lane ∧ t.wins = s.wins ∧ t.trigs = s.trigs ∧ t.ctl = s.ctl ∧
  t.leftWrites = s.leftWrites ∧ t.pending = s.pending

/-- The outstanding list without an identifier (R87). -/
def without (s : State) (id : Fin 32) : List Transaction :=
  s.port.outstanding.filter (fun t => t.id ≠ id)

/-- The state in which a soft reset ends (R164 and the rules it names): locked windows, the filtered levels,
the tick, the prescaler, the administrative registers and the abandoned identifiers are kept, and the waiting
commands, which are not the engine's. -/
def softResetState (s : State) : State := { State.reset with
  ctl := { State.reset.ctl with srBase := s.ctl.srBase, crBase := s.ctl.crBase, srLog2 := s.ctl.srLog2, crLog2 := s.ctl.crLog2 }
  wins := s.wins.map (fun w => if w.locked then w else ⟨false, false, 0, 0, 0, 0⟩)
  trigs := s.trigs.map (fun t => ⟨.none, 0, t.filtered, 0, 0, false⟩)
  time := ⟨s.time.tick, s.time.prescaler, []⟩
  port := { State.reset.port with abandoned := s.port.abandoned }
  pending := s.pending }

/-- In RESETTING the drain is complete once nothing is outstanding (R164). -/
def drained (s : State) : State := if s.port.outstanding = [] then softResetState s else s

/-- The row of the table that answers a transaction, with success and the given bytes or with an error. -/
def answerOf (t : Transaction) (ok : Bool) (data : Line) : Instr :=
  match t.request.kind with
  | .recordFetch _ => if ok then .recordFetchSuccess t.id data else .recordFetchError t.id
  | .readUnit _ => .readUnitAnswer t.id (if ok then .success data else .error)
  | .writeUnit _ => .writeUnitAnswer t.id ok
  | .completionWrite _ => if ok then .completionWriteAck t.id else .completionWriteError t.id
  | .messageWrite _ => if ok then .messageWriteAck t.id else .messageWriteError t.id
  | .resultWrite => .resultWriteAnswer t.id ok
  | .faultMessage => .faultMessageAnswer t.id ok

/-- The entry into HALTED from RUNNING, PAUSING or PAUSED (R161): the Completion Unit's and the Admin Unit's
presented requests are withdrawn, a record staying in its list and a message staying due (R162). -/
def halted (p : State) : State :=
  if p.works = false then p else { p with
    ctl := { p.ctl with engine := .halted }
    port := { p.port with completion := none, admin := none }
    crs := match p.port.completion with
      | some ⟨.completionWrite n, _, _, _⟩ =>
        p.crs.set n { p.cr n with recordWrite := false, resetWrite := false }
      | some ⟨.messageWrite n, _, _, _⟩ => p.crs.set n { p.cr n with message := .none, resetWrite := false }
      | _ => p.crs }

/-- The row of the table that an SR0 record stands for (Table 11.9). -/
def adminCommand (r : Line) : Instr :=
  match recordAdminOp r with
  | none => .adminUnknown r
  | some .createCr => .createCr r
  | some .deleteCr => .deleteCr r
  | some .createSr => .createSr r
  | some .deleteSr => .deleteSr r
  | some .setLevel => .setLevel r
  | some .pauseSr => .pauseSr r
  | some .resumeSr => .resumeSr r
  | some .abortSr => .abortSr r
  | some .resetSr => .resetSr r
  | some .resetCr => .resetCr r
  | some .setWindow => .setWindow r
  | some .clearWindow => .clearWindow r
  | some .setTrigger => .setTrigger r
  | some .setEngine => .setEngine r
  | some .query => .query r
  | some .identify => .identify r

/-- An administrative record names the command, and every byte and bit it does not use is zero. -/
def plainRecord (op : AdminOp) (r : Line) : Prop := recordAdminOp r = some op ∧ unusedClear op r = true

/-- The completion of the command in the SR0 head slot is produced into CR0 with a status and a result, the
slot empties and the Admin Unit is idle (R126, R137). CR0 FAULTED discards it (R21). -/
def completed (s : State) (st : Status) (v : Nat) : State :=
  let rec0 : CplRecord :=
    ⟨s.adminTag, 0, st, (s.sr 0).consumer, false, false, false, false, BitVec.ofNat 32 v, 0, false⟩
  let c := s.cr 0
  { s with
    admin := .idle
    srs := s.srs.set (0 : Fin 16) { s.sr 0 with head := .empty }
    crs := s.crs.set (0 : Fin 8) (if c.state = .faulted then
        { c with reserved := c.reserved - 1, discarded := min 0xFFFFFFFF (c.discarded + 1) }
      else { c with outbound := c.outbound ++ [rec0] }) }

/-- The parameter ranges of Table 9.1, with the bases, buffers and vectors of R140, R142, R152 to R155 and
R157 at the positions of Table 11.10. -/
def paramsFit (op : AdminOp) (r : Line) : Prop :=
  let fits (base extent : Nat) : Prop := base % 64 = 0 ∧ base + extent ≤ 2 ^ 48
  let vector (enabled : Bool) (address : Nat) : Prop := enabled = true → address % 4 = 0 ∧ address < 2 ^ 48
  match op with
  | .createCr => (1 ≤ byteAt r 12 ∧ byteAt r 12 ≤ 7) ∧ (1 ≤ byteAt r 13 ∧ byteAt r 13 ≤ 12) ∧
    1 ≤ byteAt r 14 ∧ fits (fieldAt r 16 8) (2 ^ byteAt r 13 * 16) ∧ vector (bitAt r 26 0) (fieldAt r 28 8)
  | .deleteCr => 1 ≤ byteAt r 12 ∧ byteAt r 12 ≤ 7
  | .resetCr => 1 ≤ byteAt r 12 ∧ byteAt r 12 ≤ 7
  | .createSr => (1 ≤ byteAt r 12 ∧ byteAt r 12 ≤ 15) ∧ (1 ≤ byteAt r 13 ∧ byteAt r 13 ≤ 12) ∧
    byteAt r 14 ≤ 7 ∧ (1 ≤ byteAt r 15 ∧ byteAt r 15 ≤ 7) ∧ fits (fieldAt r 16 8) (2 ^ byteAt r 13 * 64)
  | .deleteSr => 1 ≤ byteAt r 12 ∧ byteAt r 12 ≤ 15
  | .abortSr => 1 ≤ byteAt r 12 ∧ byteAt r 12 ≤ 15
  | .resetSr => 1 ≤ byteAt r 12 ∧ byteAt r 12 ≤ 15
  | .setLevel => (1 ≤ byteAt r 12 ∧ byteAt r 12 ≤ 15) ∧ byteAt r 14 ≤ 7
  | .pauseSr => True
  | .resumeSr => True
  | .setWindow => byteAt r 12 ≤ 7 ∧ (1 ≤ fieldAt r 32 8 ∧ fieldAt r 32 8 ≤ 2 ^ 32) ∧
    fieldAt r 16 8 + fieldAt r 32 8 ≤ 2 ^ 48 ∧ fieldAt r 24 8 + fieldAt r 32 8 ≤ 2 ^ 48
  | .clearWindow => byteAt r 12 ≤ 7
  | .setTrigger => byteAt r 12 ≤ 7 ∧ byteAt r 13 ≤ 3 ∧ byteAt r 14 ≤ 15
  | .setEngine => fieldAt r 12 2 ∈ [64, 128, 256, 512] ∧ vector (bitAt r 18 0) (fieldAt r 20 8) ∧
    vector (bitAt r 18 1) (fieldAt r 32 8)
  | .query => fits (fieldAt r 16 8) 64 ∧ byteAt r 12 ≤ 4 ∧
    byteAt r 13 < (if byteAt r 12 = 0 then 16 else if byteAt r 12 = 4 then 1 else 8)
  | .identify => fits (fieldAt r 16 8) 64

/-- The value of bytes in little-endian order (section 11). -/
def littleEndian (l : List Byte) : Nat := l.foldr (fun b v => b.toNat + 256 * v) 0

/-- The (offset, size) positions of the parameters of each administrative command (Table 11.10). -/
def parameterPositions : AdminOp → List (Nat × Nat)
  | .createCr => [(12, 1), (13, 1), (14, 1), (16, 8), (24, 2), (26, 1), (28, 8), (36, 4)]
  | .deleteCr => [(12, 1)]
  | .createSr => [(12, 1), (13, 1), (14, 1), (15, 1), (16, 8), (24, 1)]
  | .deleteSr => [(12, 1)]
  | .setLevel => [(12, 1), (14, 1)]
  | .pauseSr => [(12, 2)]
  | .resumeSr => [(12, 2)]
  | .abortSr => [(12, 1)]
  | .resetSr => [(12, 1)]
  | .resetCr => [(12, 1)]
  | .setWindow => [(12, 1), (13, 1), (16, 8), (24, 8), (32, 8)]
  | .clearWindow => [(12, 1)]
  | .setTrigger => [(12, 1), (13, 1), (14, 1)]
  | .setEngine => [(12, 2), (14, 2), (16, 2), (18, 1), (20, 8), (28, 4), (32, 8), (40, 4)]
  | .query => [(12, 1), (13, 1), (16, 8)]
  | .identify => [(16, 8)]

/-- The unused positions of an administrative record are zero (R174): every byte that is not the opcode, the tag or
part of a parameter, and the bits beside a flag in a flag byte and beside the rings in a bitmap. -/
def unusedZero (op : AdminOp) (r : Line) : Prop :=
  (∀ i < 64, byteAt r i = 0 ∨ i = 0 ∨ i = 4 ∨ i = 5 ∨ ∃ p ∈ parameterPositions op, p.1 ≤ i ∧ i < p.1 + p.2) ∧
  (op = .createCr → byteAt r 26 < 2) ∧ (op = .createSr → byteAt r 24 < 2) ∧
  (op = .setWindow → byteAt r 13 < 4) ∧ (op = .setEngine → byteAt r 18 < 4) ∧
  (op = .pauseSr ∨ op = .resumeSr → byteAt r 12 % 2 = 0)

/-- The (offset, size) positions of a transfer record that must be zero: the reserved bytes of Table 11.4 and
the fields that Table 2.3 marks Z for the opcode. Bits 7:3 of byte 1 are reserved besides (R172). -/
def zeroPositions (op : Opcode) : List (Nat × Nat) :=
  [(3, 1), (6, 2), (11, 1), (56, 8)] ++
  match op with
  | .copy => [(32, 4), (36, 4), (40, 2), (42, 2), (48, 8)]
  | .copy2d => [(12, 4), (48, 8)]
  | .fill => [(16, 8), (32, 4), (36, 4), (40, 2), (42, 2)]
  | .check => [(24, 8), (32, 4), (36, 4), (40, 2), (42, 2), (48, 8)]
  | .compare => [(32, 4), (36, 4), (40, 2), (42, 2), (48, 8)]
  | .mark => [(12, 4), (16, 8), (24, 8), (32, 4), (36, 4), (40, 2), (42, 2), (48, 8)]

/-- The check of a reason fails on a record with a known opcode (Tables 2.3 to 2.5, R28). -/
def checkFails (r : Line) (continuation : Bool) (op : Opcode) (why : Reason) : Prop :=
  let f := decodeFields r
  match why with
  | .unknownOpcode => False
  | .reservedSet => 8 ≤ byteAt r 1 ∨ ∃ p ∈ zeroPositions op, fieldAt r p.1 p.2 ≠ 0
  | .flagCombination => (f.flags.crc = true ∧ (op = .fill ∨ op = .compare ∨ op = .mark)) ∨
    (op = .check ∧ f.flags.crc = false) ∨ (f.flags.crcSeed = true ∧ f.flags.crc = false)
  | .triggerOnContinuation => f.flags.trigWait = true ∧ continuation = true
  | .zeroLength => match op with
    | .mark => False
    | .copy2d => f.rowLength = 0 ∨ f.rows = 0
    | _ => f.length = 0
  | .stride => op = .copy2d ∧ f.destStride < f.rowLength
  | .addressRange => match op with
    | .copy => 2 ^ 48 < f.source + f.length ∨ 2 ^ 48 < f.destination + f.length
    | .copy2d => 2 ^ 48 < f.source + ((f.rows - 1) * f.sourceStride + f.rowLength) ∨
      2 ^ 48 < f.destination + ((f.rows - 1) * f.destStride + f.rowLength)
    | .fill => 2 ^ 48 < f.destination + f.length
    | .check => 2 ^ 48 < f.source + f.length
    | .compare => 2 ^ 48 < f.source + f.length ∨ 2 ^ 48 < f.destination + f.length
    | .mark => False
  | .atomicTooLong => f.flags.noPreempt = true ∧ 4096 < match op with
    | .copy2d => f.rows * f.rowLength
    | .mark => 0
    | _ => f.length

/-- How far transfer ring n lies behind the ring after p in a rotation over SR1 to SR15: 0 for that ring, 14 for p
(R9, R52). -/
def searchDistance (p n : Fin 16) : Nat := (n.val + 14 - p.val) % 15

/-- How far entry n of a table of `size` entries lies behind the entry after p, in ascending order with wrap: 0 for
that entry, size − 1 for p itself (R85). -/
def tableDistance (size p n : Nat) : Nat := (n + (size - 1) - p) % size

/-- The place of a requester in the fixed order of R84. -/
def requesterPlace : Requester → Nat
  | .ringFetch => 0
  | .lane => 1
  | .completion => 2
  | .admin => 3
  | .control => 4

/-- The lane once a request of its is granted: that unit of its segment is GRANTED (Table 4.1). -/
def grantedLane (l : Lane) (k : TransactionKind) : Lane :=
  match l.segment, k with
  | some g, .readUnit i => { l with segment := some { g with reads := setUnit g.reads i .granted } }
  | some g, .writeUnit i => { l with segment := some { g with writes := setUnit g.writes i .granted } }
  | _, _ => l

/-- Units of which a presented one is withdrawn: it waits again, every other one stays as it is (R74, R75). -/
def withdrawn (us : List TransferUnit) : List TransferUnit :=
  us.map (fun u => if u.state = .presented then { u with state := .waiting } else u)

/-- The ring has no write of its own presented or in flight, one left in flight by DELETE_CR included (R18, R129,
R141). -/
def noWrite (s : State) (n : Fin 8) : Prop :=
  (s.cr n).recordWrite = false ∧ (s.cr n).message = .none ∧ s.leftWrite n = false

/-- The interrupt message of completion ring n may be written (R129). -/
def messageMay (s : State) (n : Fin 8) : Prop :=
  (s.cr n).state = .active ∧ (s.vectorOf n).enabled = true ∧ (s.cr n).armed = true ∧ 0 < (s.cr n).unsignalled ∧
  ((s.cr n).threshold ≤ (s.cr n).unsignalled ∨ (match (s.cr n).timer with | .elapsed _ => true | _ => false) = true) ∧
  noWrite s n ∧ s.works = true

/-- The oldest record of completion ring n may be written (R18); a message of the ring goes first (R129). -/
def recordMay (s : State) (n : Fin 8) : Prop :=
  (s.cr n).outbound ≠ [] ∧ (s.cr n).state = .active ∧ noWrite s n ∧ s.works = true ∧ ¬ messageMay s n

/-- It is ring n's turn at the Completion Unit: the first ring with a waiting write after the one whose write it
last presented (R85). -/
def turnOf (s : State) (n : Fin 8) : Prop :=
  (messageMay s n ∨ recordMay s n) ∧
  ∀ x, messageMay s x ∨ recordMay s x → tableDistance 8 s.cplLast.val n.val ≤ tableDistance 8 s.cplLast.val x.val

/-- The position of a context's next byte on the source side, or on the destination side, which is the second
input of a COMPARE (R30, R73). -/
def position (c : Context) (base stride : Nat) : Nat :=
  if c.op = .copy2d then base + c.row * stride + c.rowOffset else base + c.bytesDone

/-- A record that holds the given (offset, size, value) fields, little-endian, and 0 in every other byte. -/
def holdsFields (q : Line) (fs : List (Nat × Nat × Nat)) : Prop :=
  (∀ p ∈ fs, fieldAt q p.1 p.2.1 = p.2.2 % 256 ^ p.2.1) ∧
  ∀ i < 64, (∀ p ∈ fs, i < p.1 ∨ p.1 + p.2.1 ≤ i) → byteAt q i = 0

/-- Table 11.11, kind SR; of an ABSENT ring the header alone (R155). -/
def srFields (s : State) (n : Fin 16) : List (Nat × Nat × Nat) :=
  let r := s.sr n
  [(0, 1, 0), (1, 1, n.val)] ++ if r.state = .absent then [] else
  [(4, 1, r.state.code), (5, 1, r.log2), (6, 1, r.level.val),
    (7, 1, match r.pendingLevel with | some l => 128 + l.val | none => 0), (8, 8, r.base),
    (16, 2, r.producer), (18, 2, r.consumer), (20, 1, r.bound.val),
    (21, 1, match r.head with
      | .empty => 0
      | .transfer ⟨_, _, _, .execute _, _⟩ => 1
      | .transfer ⟨_, _, _, .settled _ _, _⟩ => 2
      | .admin _ _ => 3),
    (22, 1, match r.head with
      | .transfer ⟨_, _, _, .settled status _, _⟩ => status.code
      | _ => 0),
    (23, 1, match r.head with
      | .transfer h => (if h.fields.flags.trigWait then 128 else 0) + h.fields.line.val
      | _ => 0),
    (24, 2, match r.head with
      | .empty => 0
      | .transfer h => h.fields.tag.toNat
      | .admin a _ => fieldAt a 4 2),
    (26, 1, match r.head with
      | .transfer h => if h.late then 1 else 0
      | _ => 0),
    (27, 1, (if r.fetchInFlight then 1 else 0) + if r.dispatched then 2 else 0),
    (28, 1, (s.dispatchedPlace n).1), (29, 1, (s.dispatchedPlace n).2), (30, 1, r.link.code),
    (31, 1, match r.carry with
      | .closed => 0
      | .opened none => 1
      | .opened (some _) => 3),
    (32, 4, match r.carry with
      | .opened (some x) => x.toNat
      | _ => 0)]

/-- Table 11.11, kind CR; CR0's vector is that of SET_ENGINE (R175). -/
def crFields (s : State) (n : Fin 8) : List (Nat × Nat × Nat) :=
  let c := s.cr n
  let v := if n = 0 then s.ctl.crVector else c.vector
  [(0, 1, 1), (1, 1, n.val)] ++ if c.state = .absent then [] else
  [(4, 1, c.state.code), (5, 1, c.log2),
    (6, 1, (if c.phase then 1 else 0) + (if c.armed then 2 else 0) + if v.enabled then 4 else 0),
    (7, 1, c.threshold), (8, 8, c.base), (16, 2, c.producer), (18, 2, c.consumer), (20, 2, c.reserved),
    (22, 2, c.outbound.length), (24, 8, v.address.toNat), (32, 4, v.data.toNat), (36, 2, c.coalesceTime),
    (38, 2, c.unsignalled),
    (40, 1, match c.timer with | .absent => 0 | .running _ => 1 | .elapsed _ => 2),
    (41, 1, match c.message with | .none => 0 | .inFlight => 1 | .inFlightArmHeld => 2),
    (44, 4, match c.timer with | .absent => 0 | .running b => b.toNat | .elapsed b => b.toNat),
    (48, 4, c.discarded)]

/-- Table 11.11, kind window. -/
def windowFields (s : State) (i : Fin 8) : List (Nat × Nat × Nat) :=
  let w := s.win i
  [(0, 1, 2), (1, 1, i.val), (4, 1, (if w.enabled then 1 else 0) + if w.locked then 2 else 0),
    (8, 8, w.matchBase), (16, 8, w.matchLength), (24, 8, w.substituteBase), (32, 4, w.count)]

/-- Table 11.11, kind trigger. -/
def triggerFields (s : State) (i : Fin 8) : List (Nat × Nat × Nat) :=
  let t := s.trig i
  [(0, 1, 3), (1, 1, i.val), (4, 1, t.edge.code), (5, 1, t.filterLength), (6, 1, if t.filtered then 1 else 0),
    (7, 1, t.credits), (8, 1, if t.overrun then 1 else 0)]

/-- Table 11.11, kind engine. -/
def engineFields (s : State) : List (Nat × Nat × Nat) :=
  let e := s.ctl
  let a (f : Context → Nat) : Nat := (s.disp.active.map f).getD 0
  [(0, 1, 4), (1, 1, 0), (4, 1, e.engine.code), (5, 1, if s.admin = .idle then 0 else 1),
    (6, 2, e.segmentSize), (8, 4, s.time.tick.toNat), (12, 2, e.responseTimeout), (14, 2, e.tickDivider),
    (16, 1, (if e.faultVector.enabled then 1 else 0) + (if e.crVector.enabled then 2 else 0) + a (fun _ => 4)),
    (17, 1, s.disp.stack.length), (18, 1, a (fun c => c.ring.val)), (19, 1, a (fun c => c.level.val)),
    (20, 2, a (fun c => c.fields.tag.toNat)), (22, 1, s.port.outstanding.length),
    (23, 1, s.port.abandoned.length), (24, 4, a (fun c => c.bytesDone))] ++
  s.disp.stack.reverse.zipIdx.map (fun p => (28 + p.2, 1, p.1.ring.val)) ++
  [(36, 8, e.faultVector.address.toNat), (44, 4, e.faultVector.data.toNat),
    (48, 8, e.crVector.address.toNat), (56, 4, e.crVector.data.toNat)]

/-- Table 11.12. -/
def capabilityFields : List (Nat × Nat × Nat) :=
  [(0, 2, 0x2A61), (2, 2, 0x0103), (4, 1, 8), (5, 1, 16), (6, 1, 8), (7, 1, 8), (8, 1, 8), (9, 1, 48),
    (10, 2, 4096), (12, 1, 0x0F), (13, 1, 16), (14, 2, 4096), (16, 4, 0x00FFFFFF)]

/-- The rings that the bitmap of a PAUSE_SR or RESUME_SR names (R145, R173). -/
def named (r : Line) (n : Fin 16) : Bool := n ≠ 0 && (fieldAt r 12 2).testBit n.val

/-- PAUSE_SR and RESUME_SR (R145, Table 9.2): NO_RING if a ring with `names` is ABSENT, then WRONG_STATE if one
is in a refused state, else each that is in state `old` takes `new`, and the result names those. -/
def setNamed (u : State) (names : Fin 16 → Bool) (refused : List SrState) (old new : SrState) : State :=
  if ∃ n, names n = true ∧ (u.sr n).state = .absent then completed u .noRing 0
  else if ∃ n, names n = true ∧ (u.sr n).state ∈ refused then completed u .wrongState 0
  else completed { u with srs := Vector.ofFn (fun n =>
      if names n = true ∧ (u.sr n).state = old then { u.sr n with state := new } else u.sr n) } .ok
    (((List.finRange 16).filter (fun n => names n = true ∧ (u.sr n).state = old)).map (fun n => 2 ^ n.val)).sum

/-- The state after step 2 of R146: the ring ABORTING, its end state noted, the Admin Unit waiting for the
markers. -/
def aborting (s : State) (n : Fin 16) : State :=
  { s.setSr n { s.sr n with state := .aborting } with
    admin := .abortMarkers n (decide ((s.sr n).state = .faulted)) }

/-- The administrative command of an SR0 record runs as `effect` on the state in which it was taken, and
the event may take decision (a) (R59, R137; that every administrative event tries it is log entry 16). -/
def runsAs (i : Instr) (s : State) (t : Transaction) (r : Line) (effect : State → State) : Prop :=
  exec i s = .next (decisionA (effect (s.adminTaken t r)))

end Sys2Proof.Claims

open Sys2Proof.Claims

/-! ## The queue and the resets -/

/-- A step runs the command at the front of the queue on the state with the queue's rest. The queue is the
model's own field (log entry 3). -/
def Obligations.StepRunsFrontCommand : Prop :=
  ∀ (s : State) (c : Instr) (rest : List Instr),
    s.pending = c :: rest → step s = exec c { s with pending := rest }

/-- What power-on reset leaves, in the registers, the tables and the units (R22, R69, R89, R100, R112,
R121, R166, Tables 10.4 and 11.1), and that POWER_ON_RESET leaves it at once in any state; the waiting
commands are not the engine's (the model's choice, log entry 21), and what the manual gives no value for in
an ABSENT ring and in the buffers is the model's choice (log entry 20). -/
def Obligations.ResetValues : Prop :=
  (∀ s : State, exec .powerOnReset s = .next { State.reset with pending := s.pending }) ∧
  readRegister State.reset 0 = 0x2A610103#32 ∧
  (∀ o, o ≠ 0 → readRegister State.reset o = 0#32) ∧
  State.reset.faultN = true ∧ State.reset.ctl.engine = .off ∧
  State.reset.ctl.segmentSize = 256 ∧ State.reset.ctl.responseTimeout = 1000 ∧
  State.reset.ctl.tickDivider = 199 ∧ State.reset.ctl.owed = 0 ∧
  State.reset.ctl.faultVector = ⟨false, 0, 0⟩ ∧ State.reset.ctl.crVector = ⟨false, 0, 0⟩ ∧
  (∀ n, (State.reset.sr n).state = .absent ∧ (State.reset.sr n).head = .empty ∧
    (State.reset.sr n).fetchInFlight = false ∧ (State.reset.sr n).dispatched = false ∧
    (State.reset.sr n).carry = .closed ∧ (State.reset.sr n).pendingLevel = none) ∧
  (∀ n, (State.reset.cr n).state = .absent ∧ (State.reset.cr n).reserved = 0 ∧
    (State.reset.cr n).outbound = [] ∧ (State.reset.cr n).discarded = 0) ∧
  (∀ i, State.reset.win i = ⟨false, false, 0, 0, 0, 0⟩) ∧
  (∀ i, State.reset.trig i = ⟨.none, 0, false, 0, 0, false⟩) ∧
  (∀ p, State.reset.pointer p = 1) ∧ State.reset.disp.active = none ∧ State.reset.disp.stack = [] ∧
  State.reset.lane.state = .idle ∧ State.reset.time = ⟨0, 0, []⟩ ∧ State.reset.admin = .idle ∧
  State.reset.port = ⟨none, none, none, none, none, [], [], .control⟩ ∧
  State.reset.fetchLast = 15 ∧ State.reset.cplLast = 7

/-- A soft reset request with nothing outstanding passes to OFF in one event, with the soft reset values
(R164). With transactions outstanding it withdraws every presented request and waits in RESETTING (R163); in
RESETTING it is ignored (R158), an answer of any kind or a timeout only retires its transaction, and the one
that empties the list ends the drain with the soft reset values (R89, R164). Bits that ask for no reset decode
as the ENABLE or PAUSE row (R158). The waiting commands are kept and the unlisted fields of ABSENT rings, the
segment fault and the buffers hold the model's values (log entries 20 and 21). That the marks of writes in flight, of
the Completion Unit and of Engine Control, stay as they are until the drain ends is the model's choice (log
entry 25). -/
def Obligations.SoftResetOutcomes : Prop :=
  (∀ (s : State) (e p r : Bool), (r = true ∨ (e = false ∧ s.ctl.enable = true)) →
    (s.ctl.engine = .resetting → exec (.softResetRequest e p r) s = .next s) ∧
    (s.ctl.engine ≠ .resetting → s.port.outstanding = [] →
      exec (.softResetRequest e p r) s = .next (softResetState s)) ∧
    (s.ctl.engine ≠ .resetting → s.port.outstanding ≠ [] →
      exec (.softResetRequest e p r) s = .next { s with
        ctl := { s.ctl with engine := .resetting }
        lane := { s.lane with segment := s.lane.segment.map (fun g =>
          { g with reads := withdrawn g.reads, writes := withdrawn g.writes }) }
        port := { s.port with
          ringFetch := none, lane := none, completion := none, admin := none, control := none } })) ∧
  (∀ (s : State) (e p : Bool), (e = true ∨ s.ctl.enable = false) →
    exec (.softResetRequest e p false) s = if e then exec (.enable p) s else exec (.pause p) s) ∧
  (∀ (s : State) (t : Transaction), s.awaits t → s.ctl.engine = .resetting →
    (∀ ok d, exec (answerOf t ok d) s = .next (drained { s with port := { s.port with
      outstanding := without s t.id } })) ∧
    (s.ctl.responseTimeout ≠ 0 → s.ctl.responseTimeout ≤ (s.time.tick - t.issued).toNat →
      exec (.transactionTimeout t.id) s = .next (drained { s with port := { s.port with
        outstanding := without s t.id, abandoned := s.port.abandoned ++ [t.id] } })))

/-! ## The register port -/

/-- A submission tail update (R4): the two errors in their order, else the producer index is set. -/
def Obligations.TailUpdateOutcomes : Prop :=
  ∀ (s : State) (n : Fin 16) (x : BitVec 12) (a : Bool), decodes s →
    ((s.sr n).state = .absent →
      exec (.submissionTailUpdate n x a) s = .next (reportFault s .notifyAbsent n x.toNat)) ∧
    ((s.sr n).state ≠ .absent → 2 ^ (s.sr n).log2 ≤ x.toNat →
      exec (.submissionTailUpdate n x a) s = .next (reportFault s .notifyRange n x.toNat)) ∧
    ((s.sr n).state ≠ .absent → x.toNat < 2 ^ (s.sr n).log2 →
      exec (.submissionTailUpdate n x a) s = .next (s.setSr n { s.sr n with producer := x.toNat }))

/-- A completion head update (R5) with its arm (R132): without a message in flight the armed flag is set and
the timer of a non-zero U restarts; with one in flight the arm is held. -/
def Obligations.HeadUpdateOutcomes : Prop :=
  ∀ (s : State) (n : Fin 16) (x : BitVec 12) (a : Bool), decodes s →
    (8 ≤ n.val → exec (.completionHeadUpdate n x a) s = .next (reportFault s .notifyRange n x.toNat)) ∧
    (∀ k : Fin 8, n.val = k.val →
      ((s.cr k).state = .absent →
        exec (.completionHeadUpdate n x a) s = .next (reportFault s .notifyAbsent n x.toNat)) ∧
      ((s.cr k).state ≠ .absent →
        (2 ^ (s.cr k).log2 ≤ x.toNat ∨
          apart (2 ^ (s.cr k).log2) (s.cr k).producer (s.cr k).consumer <
            apart (2 ^ (s.cr k).log2) x.toNat (s.cr k).consumer) →
        exec (.completionHeadUpdate n x a) s = .next (reportFault s .notifyRange n x.toNat)) ∧
      ((s.cr k).state ≠ .absent → x.toNat < 2 ^ (s.cr k).log2 →
        apart (2 ^ (s.cr k).log2) x.toNat (s.cr k).consumer ≤
          apart (2 ^ (s.cr k).log2) (s.cr k).producer (s.cr k).consumer →
        exec (.completionHeadUpdate n x a) s = .next (s.setCr k
          (if a = false then { s.cr k with consumer := x.toNat }
           else if (s.cr k).message = .none then
             { s.cr k with
               consumer := x.toNat
               armed := true
               timer := if 0 < (s.cr k).unsignalled then .running s.time.tick else (s.cr k).timer }
           else { s.cr k with consumer := x.toNat, message := .inFlightArmHeld }))))

/-- NOTIFY writes are ignored in OFF and RESETTING, without a fault (R3). -/
def Obligations.NotifyIgnoredOffAndResetting : Prop :=
  ∀ (s : State) (n : Fin 16) (x : BitVec 12) (a : Bool),
    s.ctl.engine = .off ∨ s.ctl.engine = .resetting →
    exec (.submissionTailUpdate n x a) s = .next s ∧ exec (.completionHeadUpdate n x a) s = .next s

/-- An enable in OFF with valid administrative registers initialises SR0 and CR0 and enters RUNNING, or
PAUSED with PAUSE 1 (R22, R159); with an invalid one it stays OFF and reports ADMIN_CONFIG with the base of
the ring whose check failed first. That a failed enable stores PAUSE is the model's reading (log entry 10). With
ENABLE stored 1 the write acts by its PAUSE bit alone, and in RESETTING it is ignored (R158). That the PAUSE of the
enabling write decides, whatever PAUSE was stored before, is the model's choice (log entry 24). -/
def Obligations.EnableOutcomes : Prop :=
  (∀ (s : State) (p : Bool), s.ctl.engine = .off → s.ctl.enable = false →
    (¬ srChecks s.ctl → exec (.enable p) s = .next (reportFault
      { s with ctl := { s.ctl with pauseBit := p } } .adminConfig 0 s.ctl.srBase.toNat)) ∧
    (srChecks s.ctl → ¬ crChecks s.ctl → exec (.enable p) s = .next (reportFault
      { s with ctl := { s.ctl with pauseBit := p } } .adminConfig 0 s.ctl.crBase.toNat)) ∧
    (srChecks s.ctl → crChecks s.ctl → exec (.enable p) s = .next { s with
      srs := s.srs.set (0 : Fin 16) { SubRing.cleared with
        state := .active, base := s.ctl.srBase.toNat, log2 := s.ctl.srLog2.toNat }
      crs := s.crs.set (0 : Fin 8) { CplRing.cleared with
        state := .active, base := s.ctl.crBase.toNat, log2 := s.ctl.crLog2.toNat
        phase := true, armed := true, threshold := 1, coalesceTime := 0 }
      ctl := { s.ctl with
        enable := true, pauseBit := p, engine := if p then .paused else .running } })) ∧
  ∀ (s : State) (p : Bool),
    (s.ctl.enable = true → exec (.enable p) s = exec (.pause p) s) ∧
    (s.ctl.engine = .resetting → exec (.enable p) s = .next s)

/-- PAUSE acts on each engine state as R160 gives: RUNNING passes to PAUSING, or to PAUSED without an active
context, and PAUSING back to RUNNING with nothing else changed (R66); PAUSED passes to RUNNING with decision (c)
(R67); elsewhere the bit is stored, and in RESETTING the write is ignored (R158). RUNNING, PAUSING and PAUSED are the
states in which the blocks other than the Dispatcher work (R160). -/
def Obligations.PauseActsByEngineState : Prop :=
  (∀ s : State, s.works = true ↔
    s.ctl.engine = .running ∨ s.ctl.engine = .pausing ∨ s.ctl.engine = .paused) ∧
  ∀ (s : State) (p : Bool), ∃ t, exec (.pause p) s = .next t ∧
    (s.ctl.engine = .resetting → t = s) ∧
    (s.ctl.engine ≠ .resetting → t.ctl.pauseBit = p) ∧
    (s.ctl.engine = .running → p = true → t = { s with ctl := { s.ctl with
      pauseBit := true, engine := if s.disp.active.isSome then .pausing else .paused } }) ∧
    (s.ctl.engine = .pausing → p = false →
      t = { s with ctl := { s.ctl with pauseBit := false, engine := .running } }) ∧
    (s.ctl.engine = .paused → p = false → t = decisionC markFuel
      { s with ctl := { s.ctl with engine := .running, pauseBit := false } }) ∧
    (s.ctl.engine = .off ∨ s.ctl.engine = .halted ∨ (s.ctl.engine = .running ∧ p = false) ∨
      (s.ctl.engine = .pausing ∧ p = true) ∨ (s.ctl.engine = .paused ∧ p = true) →
      t = { s with ctl := { s.ctl with pauseBit := p } })

/-- In OFF an administrative register is stored whole and reads back what Table 11.2 lists of it; every
other register reads as before, and nothing but the two bases and the two sizes may change; in every other
state the write is ignored (R171). -/
def Obligations.AdminRegistersStoredInOff : Prop :=
  ∀ (s : State) (v : Word32) (o : Nat) (mask : Word32),
    (o, mask) ∈ [(0x10, 0xFFFFFFFF#32), (0x14, 0x0000FFFF#32), (0x18, 0xFFFFFFFF#32),
      (0x1C, 0x0000FFFF#32), (0x20, 0x00000F0F#32)] →
    (s.ctl.engine = .off → ∃ t, exec (.registerWrite o 4 v) s = .next t ∧
      readRegister t o = v &&& mask ∧ (∀ q, q ≠ o → readRegister t q = readRegister s q) ∧
      t = { s with ctl := { s.ctl with
        srBase := t.ctl.srBase, crBase := t.ctl.crBase, srLog2 := t.ctl.srLog2, crLog2 := t.ctl.crLog2 } }) ∧
    (s.ctl.engine ≠ .off → exec (.registerWrite o 4 v) s = .next s)

/-- A read of the register window returns the fields of Table 11.2 as they stand, reserved bits, NOTIFY and the
unassigned offsets as 0 (R158, R171; FAULT, FADDRL and FADDRH beside the capture, in FaultsAreCapturedAndMessaged).
A write to DEVCTL, NOTIFY or FAULT acts as the command its fields spell; a write to a read-only or
unassigned offset, or of another width or alignment, changes nothing (R171); a write past the window changes
nothing (the model's reading, log entry 17). -/
def Obligations.RegisterAccessesDecode : Prop :=
  [EngineState.off, .running, .pausing, .paused, .halted, .resetting].map EngineState.code = [0, 1, 2, 3, 4, 5] ∧
  (∀ s : State,
    readRegister s 0x00 = 0x2A610103#32 ∧
    readRegister s 0x04 = BitVec.ofNat 32
      ((if s.ctl.enable then 1 else 0) + if s.ctl.pauseBit then 2 else 0) ∧
    readRegister s 0x08 = BitVec.ofNat 32 (s.ctl.engine.code + 2 ^ 4 * (if s.admin = .idle then 0 else 1) +
      2 ^ 8 * (if s.disp.active = none then 0 else 1) +
      2 ^ 12 * (s.disp.active.map (fun c => c.level.val)).getD 0 + 2 ^ 16 * s.disp.stack.length) ∧
    readRegister s 0x10 = BitVec.ofNat 32 s.ctl.srBase.toNat ∧
    readRegister s 0x14 = BitVec.ofNat 32 (s.ctl.srBase.toNat / 2 ^ 32) ∧
    readRegister s 0x18 = BitVec.ofNat 32 s.ctl.crBase.toNat ∧
    readRegister s 0x1C = BitVec.ofNat 32 (s.ctl.crBase.toNat / 2 ^ 32) ∧
    readRegister s 0x20 = BitVec.ofNat 32 (s.ctl.srLog2.toNat + 2 ^ 8 * s.ctl.crLog2.toNat) ∧
    ∀ o, o ∉ [0x00, 0x04, 0x08, 0x10, 0x14, 0x18, 0x1C, 0x20, 0x24, 0x28, 0x2C] → readRegister s o = 0#32) ∧
  ∀ (s : State) (v : Word32),
    exec (.registerWrite 0x04 4 v) s =
      (if v.getLsbD 2 = true ∨ v.getLsbD 0 = false then
        exec (.softResetRequest (v.getLsbD 0) (v.getLsbD 1) (v.getLsbD 2)) s
       else exec (.enable (v.getLsbD 1)) s) ∧
    exec (.registerWrite 0x0C 4 v) s =
      (if v.getLsbD 31 then
        exec (.completionHeadUpdate (v.extractLsb' 16 4).toFin (v.extractLsb' 0 12) (v.getLsbD 24)) s
       else
        exec (.submissionTailUpdate (v.extractLsb' 16 4).toFin (v.extractLsb' 0 12) (v.getLsbD 24)) s) ∧
    exec (.registerWrite 0x24 4 v) s = (if v.getLsbD 0 then exec .faultClear s else .next s) ∧
    (∀ o ∈ [0x00, 0x08, 0x28, 0x2C, 0x30, 0x34, 0x38, 0x3C], exec (.registerWrite o 4 v) s = .next s) ∧
    (∀ o w, (w ≠ 4 ∨ o % 4 ≠ 0) → exec (.registerWrite o w v) s = .next s) ∧
    (∀ o, 0x40 ≤ o → exec (.registerWrite o 4 v) s = .next s)

/-! ## Admission -/

/-- An admission begins on a ring that meets R8 in its turn, which of the rings that share a completion ring is
that of the first after the last taker, in ascending order with wrap (R9): a reservation, the marker, and the read
at base + C × 64, which waits to be presented. Otherwise nothing begins (log entry 2). With nothing presented the
Ring Fetch Unit presents the first waiting fetch after the ring it last presented (R85); a fetch that finds one
presented waits for a grant (log entry 19). -/
def Obligations.AdmissionBegins : Prop :=
  (∀ (s : State) (n : Fin 16),
    (s.eligible n = true ↔ (s.sr n).state = .active ∧ (s.sr n).producer ≠ (s.sr n).consumer ∧
      (s.sr n).head = .empty ∧ (s.sr n).fetchInFlight = false ∧ (s.cr (s.sr n).bound).state = .active ∧
      apart (2 ^ (s.cr (s.sr n).bound).log2) (s.cr (s.sr n).bound).producer (s.cr (s.sr n).bound).consumer +
        (s.cr (s.sr n).bound).reserved < 2 ^ (s.cr (s.sr n).bound).log2 - 1 ∧
      s.works = true) ∧
    (s.eligible n = true →
      (n = 0 ∨ ∀ x, x ≠ 0 → (s.sr x).bound = (s.sr n).bound → s.eligible x = true →
        searchDistance (s.cr (s.sr n).bound).lastTaker n ≤ searchDistance (s.cr (s.sr n).bound).lastTaker x) →
      exec (.admissionBegin n) s = .next (presentFetch { s with
        srs := s.srs.set n { s.sr n with fetchInFlight := true, fetchQueued := true }
        crs := s.crs.set (s.sr n).bound { s.cr (s.sr n).bound with
          reserved := (s.cr (s.sr n).bound).reserved + 1
          lastTaker := if n = 0 then (s.cr (s.sr n).bound).lastTaker else n } })) ∧
    (s.eligible n = false ∨
      (n ≠ 0 ∧ ∃ x, x ≠ 0 ∧ (s.sr x).bound = (s.sr n).bound ∧ s.eligible x = true ∧
        searchDistance (s.cr (s.sr n).bound).lastTaker x < searchDistance (s.cr (s.sr n).bound).lastTaker n) →
      exec (.admissionBegin n) s = .next s)) ∧
  ∀ s : State,
    (s.port.ringFetch ≠ none ∨ (∀ n, (s.sr n).fetchQueued = false) → presentFetch s = s) ∧
    ∀ n, s.port.ringFetch = none → (s.sr n).fetchQueued = true →
      (∀ x, (s.sr x).fetchQueued = true →
        tableDistance 16 s.fetchLast.val n.val ≤ tableDistance 16 s.fetchLast.val x.val) →
      presentFetch s = { s with
        srs := s.srs.set n { s.sr n with fetchQueued := false }
        fetchLast := n
        port := { s.port with
          ringFetch := some (⟨.recordFetch n, (s.sr n).base + (s.sr n).consumer * 64, 64, []⟩ : Request) } }

/-- Validation at admission (R25 to R28, R172): the reason is that of the first check of Table 2.4 that fails, an
unknown opcode before all others, and a record that passes every check is to execute. The fields are read at the
positions of Table 11.4, little-endian; the codes are those of Tables 11.5 and 11.8. -/
def Obligations.ValidationGivesFirstReason : Prop :=
  (∀ (r : Line) (o n : Nat), fieldAt r o n = littleEndian ((r.toList.drop o).take n)) ∧
  (∀ r : Line,
    (decodeFields r).opcode.toNat = byteAt r 0 ∧ (decodeFields r).line.val = byteAt r 1 % 8 ∧
    [(decodeFlags r).crc, (decodeFlags r).crcSeed, (decodeFlags r).chain, (decodeFlags r).noPreempt,
      (decodeFlags r).abortOnMiss, (decodeFlags r).noSubst, (decodeFlags r).noIntr, (decodeFlags r).trigWait] =
      (List.range 8).map (fun i => (fieldAt r 2 2).testBit i) ∧
    (decodeFields r).flags = decodeFlags r ∧ (decodeFields r).tag.toNat = fieldAt r 4 2 ∧
    (decodeFields r).budget = fieldAt r 8 3 ∧ (decodeFields r).length = fieldAt r 12 4 ∧
    (decodeFields r).source = fieldAt r 16 8 ∧ (decodeFields r).destination = fieldAt r 24 8 ∧
    (decodeFields r).sourceStride = fieldAt r 32 4 ∧ (decodeFields r).destStride = fieldAt r 36 4 ∧
    (decodeFields r).rowLength = fieldAt r 40 2 ∧ (decodeFields r).rows = fieldAt r 42 2 ∧
    (decodeFields r).seed.toNat = fieldAt r 44 4 ∧
    (decodeFields r).pattern.map (fun b => b.toNat) = (List.range 8).map (fun i => byteAt r (48 + i))) ∧
  [Opcode.copy, .copy2d, .fill, .check, .compare, .mark].map some =
    [0x01#8, 0x02#8, 0x03#8, 0x04#8, 0x05#8, 0x06#8].map opcodeOf ∧
  (∀ b : Byte, b = 0 ∨ 6 < b.toNat → opcodeOf b = none) ∧
  [Reason.unknownOpcode, .reservedSet, .flagCombination, .triggerOnContinuation, .zeroLength, .stride, .addressRange,
    .atomicTooLong].map Reason.code = [1, 2, 3, 4, 5, 6, 7, 8] ∧
  ∀ (r : Line) (continuation : Bool),
    (opcodeOf (decodeFields r).opcode = none → validate r continuation = .invalid .unknownOpcode) ∧
    ∀ op, opcodeOf (decodeFields r).opcode = some op →
      (∀ why, validate r continuation = .invalid why ↔ checkFails r continuation op why ∧
        ∀ x : Reason, x.code < why.code → ¬ checkFails r continuation op x) ∧
      (validate r continuation = .execute op ↔ ∀ x, ¬ checkFails r continuation op x)

/-- A fetched transfer record is placed (R10, R23, R41, R42): its fields, position, tick and settlement in
the head slot, the consumer index advanced, the marker clear, the chain link for the next record, a watch
entry for a command to execute with a budget; then, in the same event, a settled head drains (R17), a pending
level is applied (R48), an ABORT_SR whose markers are clear closes (R148), and decision (a) is taken where it is
due (R59; that it is tried here is log entry 16). -/
def Obligations.TransferRecordAdmitted : Prop :=
  ∀ (s : State) (t : Transaction) (n : Fin 16) (r : Line), s.awaits t → t.request.kind = .recordFetch n →
    n ≠ 0 → s.ctl.engine ≠ .resetting →
    ∃ p st, exec (.recordFetchSuccess t.id r) s =
        .next (decisionA (closeAbort (applyPending (drainHead p n) n))) ∧
      (st = match (s.sr n).link with
        | .broken => .settled .skipped 0
        | link => match validate r (link = .linked) with
          | .execute op => .execute op
          | .invalid why => .settled .invalid (BitVec.ofNat 32 why.code)) ∧
      p.sr n = { s.sr n with
        head := .transfer ⟨decodeFields r, (s.sr n).link ≠ .unlinked, s.time.tick, st, false⟩
        consumer := ((s.sr n).consumer + 1) % 2 ^ (s.sr n).log2
        fetchInFlight := false
        link := if (decodeFlags r).chain then (if st.toExecute then .linked else .broken)
          else .unlinked } ∧
      (∀ m, m ≠ n → p.sr m = s.sr m) ∧ p.crs = s.crs ∧ sameBlocks s p ∧ p.admin = s.admin ∧
      p.port = { s.port with outstanding := without s t.id } ∧
      p.time = { s.time with watch := s.time.watch ++
        if st.toExecute && fieldAt r 8 3 ≠ 0 then
          [⟨n, .head, s.time.tick, fieldAt r 8 3, s.time.tick + BitVec.ofNat 32 (fieldAt r 8 3)⟩]
        else [] }

/-- A fetch that fails (R7, R11, R147): the reservation released, the consumer index left, the marker clear,
the ring FAULTED or still ABORTING with FAULTED as its noted end state. A transfer ring's failure reports
SR_FETCH with the record's address; SR0's reports ADMIN_FETCH, and a working engine enters HALTED (R161). A
message write withdrawn there is in flight no longer, and an arm held behind it is dropped: the model's reading
(log entry 8). That the failure tries decision (a) is log entry 16. -/
def Obligations.FetchFailureOutcomes : Prop :=
  ∀ (s : State) (t : Transaction) (n : Fin 16), s.awaits t → t.request.kind = .recordFetch n →
    s.ctl.engine ≠ .resetting →
    ∃ p, (n ≠ 0 → exec (.recordFetchError t.id) s = .next (decisionA (closeAbort (reportFault p .srFetch n
        ((s.sr n).base + (s.sr n).consumer * 64))))) ∧
      (n = 0 → exec (.recordFetchError t.id) s = .next (halted (reportFault p .adminFetch 0
        ((s.sr n).base + (s.sr n).consumer * 64)))) ∧
      p.sr n = { s.sr n with
        fetchInFlight := false
        state := if (s.sr n).state = .aborting then .aborting else .faulted } ∧
      p.cr (s.sr n).bound = { s.cr (s.sr n).bound with reserved := (s.cr (s.sr n).bound).reserved - 1 } ∧
      onlyRings s p n (s.sr n).bound ∧ sameBlocks s p ∧ p.time = s.time ∧
      p.admin = (match s.admin with
        | .abortMarkers x e => .abortMarkers x (e || decide (x = n))
        | a => a) ∧
      p.port = { s.port with outstanding := without s t.id }

/-- The success of the SR0 fetch is the administrative row that its record names: one event (R137; the
model's reading, log entry 1). The record's own opcode governs in every such row (R138). In HALTED the record is
placed in the SR0 head slot and not taken (R10, R12, R139). -/
def Obligations.AdminRowIsItsFetch : Prop :=
  (∀ (s : State) (t : Transaction) (r : Line), s.awaits t → s.port.adminFetch = some t →
    exec (.recordFetchSuccess t.id r) s = exec (adminCommand r) s) ∧
  (∀ (s : State) (t : Transaction) (r : Line), s.awaits t → t.request.kind = .recordFetch 0 →
    s.ctl.engine = .halted → exec (.recordFetchSuccess t.id r) s = .next { s with
      srs := s.srs.set (0 : Fin 16) { s.sr 0 with
        head := .admin r s.time.tick
        consumer := ((s.sr 0).consumer + 1) % 2 ^ (s.sr 0).log2
        fetchInFlight := false }
      port := { s.port with outstanding := without s t.id } }) ∧
  ∀ (s : State) (r : Line), ∀ i ∈ [Instr.adminUnknown r, .createCr r, .deleteCr r, .createSr r, .deleteSr r,
      .setLevel r, .pauseSr r, .resumeSr r, .abortSr r, .resetSr r, .resetCr r, .setWindow r, .clearWindow r,
      .setTrigger r, .setEngine r, .query r, .identify r],
    exec i s = exec (adminCommand r) s

/-! ## The Memory Port -/

/-- A grant (R84, R86): with fewer than 16 outstanding, a free identifier and the engine not RESETTING, the
first requester after the pointer, in the order Ring Fetch Unit, Transfer Lane, Completion Unit, Admin Unit, Engine
Control with wrap, that presents a request is granted: the request becomes outstanding with the present tick, the
pointer names the requester, a lane's unit is GRANTED, and the requester presents its next request (R74, R83, R85).
Otherwise nothing is granted. No requester is granted twice running while another one presents. The row names
the identifier, a grant that is not possible changes nothing, and the next request is presented in the event of the
grant: the model's choices and reading (log entries 5, 2 and 19). -/
def Obligations.GrantIssuesOneRequest : Prop :=
  (∀ (p : Port) (q : Requester), (p.presented q).isSome = true → q ≠ p.pointer → p.next ≠ some p.pointer) ∧
  (∀ p : Port, [Requester.ringFetch, .lane, .completion, .admin, .control].map p.presented =
    [p.ringFetch, p.lane, p.completion, p.admin, p.control]) ∧
  ∀ (s : State) (id : Fin 32),
    (∀ q req, s.port.outstanding.length < 16 → (∀ t ∈ s.port.outstanding, t.id ≠ id) →
      id ∉ s.port.abandoned → s.ctl.engine ≠ .resetting → s.port.presented q = some req →
      (∀ x, (s.port.presented x).isSome = true →
        tableDistance 5 (requesterPlace s.port.pointer) (requesterPlace q) ≤
          tableDistance 5 (requesterPlace s.port.pointer) (requesterPlace x)) →
      ∃ p, p = { s with
          lane := grantedLane s.lane req.kind
          port := { s.port with
            outstanding := s.port.outstanding ++ [⟨id, s.time.tick, req⟩]
            pointer := q
            ringFetch := if q = .ringFetch then none else s.port.ringFetch
            lane := if q = .lane then none else s.port.lane
            completion := if q = .completion then none else s.port.completion
            admin := if q = .admin then none else s.port.admin
            control := if q = .control then none else s.port.control } } ∧
        exec (.memoryGrant id) s = .next (match q with
          | .ringFetch => presentFetch p
          | .lane => presentUnit p
          | .completion => presentCompletion p
          | .admin => p
          | .control => p)) ∧
    (16 ≤ s.port.outstanding.length ∨ (∃ t ∈ s.port.outstanding, t.id = id) ∨ id ∈ s.port.abandoned ∨
      s.ctl.engine = .resetting ∨ (∀ q, s.port.presented q = none) →
      exec (.memoryGrant id) s = .next s)

/-- A timeout (R88): the transaction leaves the outstanding list, its identifier is abandoned, and its
requester acts exactly as on an error answer of the interconnect, which is the row that answers it with an
error; not before (tick − issue tick) has reached a non-zero timeout, when the event changes nothing (the
model's choice, log entry 2). A late response frees the abandoned identifier and changes nothing else. -/
def Obligations.TimeoutAbandonsIdentifier : Prop :=
  (∀ (s : State) (id : Fin 32), s.port.find id = none → id ∈ s.port.abandoned →
    exec (.lateResponse id) s = .next { s with port := { s.port with
      abandoned := s.port.abandoned.filter (fun x => x ≠ id) } }) ∧
  ∀ (s : State) (t : Transaction), s.awaits t →
    (s.ctl.engine ≠ .resetting → ∀ d, exec (answerOf t false d) s = .next (deliverError t.request
      { s with port := { s.port with outstanding := without s t.id } })) ∧
    (s.ctl.responseTimeout ≠ 0 → s.ctl.responseTimeout ≤ (s.time.tick - t.issued).toNat →
      s.ctl.engine ≠ .resetting →
      exec (.transactionTimeout t.id) s = .next (deliverError t.request { s with port := { s.port with
        outstanding := without s t.id, abandoned := s.port.abandoned ++ [t.id] } })) ∧
    ((s.ctl.responseTimeout = 0 ∨ (s.time.tick - t.issued).toNat < s.ctl.responseTimeout) →
      exec (.transactionTimeout t.id) s = .next s)

/-! ## The Transfer Lane -/

/-- A read unit is answered (R74, R96). A success while the segment has no fault puts its bytes into the buffer
of its input at offset 64 j and, under a window mapping, counts them with SUBSTITUTED set; after a fault it is
absorbed. An error makes the segment fault READ, records the unit as failed and withdraws a presented unit; every
other unit and the buffers stay. Then READING may end. -/
def Obligations.ReadAnswerRecorded : Prop :=
  (∀ (buffer bytes : List Byte) (o i : Nat), o + bytes.length ≤ buffer.length →
    (putBytes buffer o bytes)[i]? = if o ≤ i ∧ i < o + bytes.length then bytes[i - o]? else buffer[i]?) ∧
  ∀ (s : State) (t : Transaction) (k : Nat) (g : Segment) (u : TransferUnit),
    s.awaits t → t.request.kind = .readUnit k → s.ctl.engine ≠ .resetting → s.lane.segment = some g →
    g.reads[k]? = some u →
    (∀ d : Line, s.lane.fault = .none →
      ∃ p, exec (.readUnitAnswer t.id (.success d)) s = .next (endReading p) ∧
      p.lane = { s.lane with
        segment := some { g with reads := setUnit g.reads k .success }
        buffer1 := if u.second then s.lane.buffer1
          else putBytes s.lane.buffer1 (64 * u.index) (d.toList.take (min 64 (g.length - 64 * u.index)))
        buffer2 := if u.second then
            putBytes s.lane.buffer2 (64 * u.index) (d.toList.take (min 64 (g.length - 64 * u.index)))
          else s.lane.buffer2 } ∧
      (∀ i : Fin 8, p.win i = match (if u.second then g.map2 else g.map1) with
        | .own => s.win i
        | .window j _ _ => if i = j then { s.win i with
            count := min 0xFFFFFFFF ((s.win i).count + min 64 (g.length - 64 * u.index)) } else s.win i) ∧
      p.disp = (match (if u.second then g.map2 else g.map1) with
        | .own => s.disp
        | .window _ _ _ => { s.disp with
            active := s.disp.active.map (fun c => { c with substituted := true }) }) ∧
      p.srs = s.srs ∧ p.crs = s.crs ∧ p.trigs = s.trigs ∧ p.ctl = s.ctl ∧ p.time = s.time ∧
      p.port = { s.port with outstanding := without s t.id }) ∧
    (∀ d : Line, s.lane.fault ≠ .none →
      exec (.readUnitAnswer t.id (.success d)) s = .next (endReading { s with
        lane := { s.lane with segment := some { g with reads := setUnit g.reads k .success } }
        port := { s.port with outstanding := without s t.id } })) ∧
    exec (.readUnitAnswer t.id .error) s = .next (endReading { s with
      lane := { s.lane with
        fault := .read
        segment := some { g with reads := withdrawn (setUnit g.reads k .error), writes := withdrawn g.writes } }
      port := { s.port with outstanding := without s t.id, lane := none } })

/-- A write unit is answered (R75): a success is acknowledged; an error makes the segment fault WRITE, records the
unit as failed and withdraws a presented unit, every other unit and the buffers staying; then WRITING may end. -/
def Obligations.WriteAnswerRecorded : Prop :=
  ∀ (s : State) (t : Transaction) (k : Nat) (g : Segment) (ok : Bool),
    s.awaits t → t.request.kind = .writeUnit k → s.ctl.engine ≠ .resetting → s.lane.segment = some g →
    (ok = true → exec (.writeUnitAnswer t.id ok) s = .next (endWriting { s with
      lane := { s.lane with segment := some { g with writes := setUnit g.writes k .success } }
      port := { s.port with outstanding := without s t.id } })) ∧
    (ok = false → exec (.writeUnitAnswer t.id ok) s = .next (endWriting { s with
      lane := { s.lane with
        fault := .write
        segment := some { g with reads := withdrawn g.reads, writes := withdrawn (setUnit g.writes k .error) } }
      port := { s.port with outstanding := without s t.id, lane := none } }))

/-- The boundary (R77 to R80, Table 4.5): a faulted segment ends the command with its progress as before the
segment; a clean one adds the segment to the CRC, the bytes done and, for COPY2D, the position within the row,
and the first of difference, full length and termination request ends the command, else decision (b) follows. The
difference of a COMPARE is the lowest offset within the segment at which the two inputs' bytes differ (R36). A
request ends the command DEADLINE_MISSED or ABORTED (R61). -/
def Obligations.BoundaryOutcomes : Prop :=
  (TermRequest.deadlineMissed.status = .deadlineMissed ∧ TermRequest.aborted.status = .aborted) ∧
  (∀ (c : Context) (g : Segment) (l : Lane),
    (c.op ≠ .compare → segmentDifference c g l = none) ∧
    (c.op = .compare → ∀ d, segmentDifference c g l = some d ↔ d < g.length ∧
      (∀ i < d, l.buffer1[i]? = l.buffer2[i]?) ∧
      ∃ x y, l.buffer1[d]? = some x ∧ l.buffer2[d]? = some y ∧ x ≠ y)) ∧
  ∀ (s : State) (c : Context) (g : Segment),
    (s.lane.fault = .read → boundaryOf s c g = afterEnd (endActive s c .readFault 0)) ∧
    (s.lane.fault = .write → boundaryOf s c g = afterEnd (endActive s c .writeFault 0)) ∧
    (s.lane.fault = .none → ∃ c1 : Context, ∃ p : State,
      c1 = { c with
        crc := c.crc.map (fun x => crcRun x (s.lane.buffer1.take g.length))
        bytesDone := c.bytesDone + g.length
        row := if c.op = .copy2d ∧ c.rowOffset + g.length = c.fields.rowLength then c.row + 1 else c.row
        rowOffset := if c.op = .copy2d then
            (if c.rowOffset + g.length = c.fields.rowLength then 0 else c.rowOffset + g.length)
          else c.rowOffset } ∧
      p = { s with disp := { s.disp with active := some c1 } } ∧
      (∀ d, segmentDifference c1 g s.lane = some d →
        boundaryOf s c g = afterEnd (endActive p c1 .mismatch (BitVec.ofNat 32 (g.start + d)))) ∧
      (segmentDifference c1 g s.lane = none → c1.bytesDone = c1.total →
        boundaryOf s c g = afterEnd (endActive p c1 .success
          (match c1.crc with | some x => x ^^^ 0xFFFFFFFF#32 | none => 0))) ∧
      (segmentDifference c1 g s.lane = none → c1.bytesDone ≠ c1.total → ∀ q, c1.request = some q →
        boundaryOf s c g = afterEnd (endActive p c1 q.status 0)) ∧
      (segmentDifference c1 g s.lane = none → c1.bytesDone ≠ c1.total → c1.request = none →
        boundaryOf s c g = decisionB p c1))

/-- The completion of a dispatched command (R15, R21, R62, R122, R125, R127): a record with the command's tag,
ring, bytes done, marks and NO_INTR and the ring's consumer index enters the tail of the bound ring's outbound
list, or is discarded and counted where that ring is FAULTED; the dispatched marker clears and the command is no
longer watched; then come the chain rules, the drain of a settled head and the pending level, in this order. -/
def Obligations.EndedCommandIsReported : Prop :=
  ∀ (s : State) (c : Context) (st : Status) (v : Word32),
    ∃ (rec : CplRecord) (p : State),
      endDispatched s c st v = applyPending (drainHead (chainAfter p c st v) c.ring) c.ring ∧
      p.cr (s.sr c.ring).bound = (if (s.cr (s.sr c.ring).bound).state = .faulted then
          { s.cr (s.sr c.ring).bound with
            reserved := (s.cr (s.sr c.ring).bound).reserved - 1
            discarded := min 0xFFFFFFFF ((s.cr (s.sr c.ring).bound).discarded + 1) }
        else { s.cr (s.sr c.ring).bound with outbound := (s.cr (s.sr c.ring).bound).outbound ++ [rec] }) ∧
      p.sr c.ring = { s.sr c.ring with dispatched := false } ∧ onlyRings s p c.ring (s.sr c.ring).bound ∧
      sameBlocks s p ∧ p.admin = s.admin ∧ p.port = s.port ∧
      p.time = { s.time with watch := s.time.watch.filter (fun e => e.ring ≠ c.ring || e.place = .head) } ∧
      rec.tag = c.fields.tag ∧ rec.srId = c.ring ∧ rec.status = st ∧ rec.result = v ∧
      rec.bytesDone = c.bytesDone ∧ rec.srHead = (s.sr c.ring).consumer ∧
      rec.noIntr = c.fields.flags.noIntr ∧
      rec.preempted = c.preempted ∧ rec.substituted = c.substituted ∧
      (rec.late = true ↔ st ≠ .deadlineMissed ∧
        (c.late = true ∨ (c.request = some .deadlineMissed ∧ st ≠ .aborted))) ∧
      (rec.chainOpen = true ↔ st = .success ∧ c.fields.flags.chain = true ∧ (s.sr c.ring).head = .empty ∧
        (s.sr c.ring).producer = (s.sr c.ring).consumer)

/-- The transactions of a segment (R34, R72 to R75, R93): its units in order; a read unit's bytes each at the
address their own governing window gives, or at their own address without one or with NO_SUBST; a write unit at
its destination address, with the buffered source bytes or the FILL's pattern; 64 bytes, or fewer at the end. The
mapping held for an input that the command does not read is the model's choice (log entry 26). -/
def Obligations.UnitsMoveSegmentBytes : Prop :=
  ∀ (ws : Vector Window 8) (size : Nat) (c : Context) (g : Segment), g = planSegment ws size c →
    g.length = segmentLength ws size c ∧ g.start = c.bytesDone ∧
    g.map1 = (if c.fields.flags.noSubst then .own
      else mappingAt ws (position c c.fields.source c.fields.sourceStride)) ∧
    g.map2 = (if c.op ≠ .compare ∨ c.fields.flags.noSubst = true then .own
      else mappingAt ws (c.fields.destination + c.bytesDone)) ∧
    (∀ a, mappingAt ws a = match governing ws a with
      | some i => .window i (ws.get i).matchBase (ws.get i).substituteBase
      | none => .own) ∧
    (g.reads = match c.op with
      | .fill | .mark => []
      | .compare => (List.range ((g.length + 63) / 64)).flatMap (fun j =>
          [⟨false, j, .waiting⟩, ⟨true, j, .waiting⟩])
      | _ => (List.range ((g.length + 63) / 64)).map (fun j => ⟨false, j, .waiting⟩)) ∧
    (g.writes = match c.op with
      | .check | .compare | .mark => []
      | _ => (List.range ((g.length + 63) / 64)).map (fun j => ⟨false, j, .waiting⟩)) ∧
    (∀ (k j : Nat) (b : Bool) (st : UnitState),
      (readRequest c g k ⟨b, j, st⟩).kind = .readUnit k ∧ (readRequest c g k ⟨b, j, st⟩).data = [] ∧
      (readRequest c g k ⟨b, j, st⟩).size = min 64 (g.length - 64 * j)) ∧
    (∀ (o k : Nat) (st : UnitState), o < g.length → c.op ≠ .fill → c.op ≠ .mark →
      (readRequest c g k ⟨false, o / 64, st⟩).address + o % 64 =
        if c.fields.flags.noSubst then position c c.fields.source c.fields.sourceStride + o
        else (mappingAt ws (position c c.fields.source c.fields.sourceStride + o)).address
          (position c c.fields.source c.fields.sourceStride + o)) ∧
    (∀ (o k : Nat) (st : UnitState), o < g.length → c.op = .compare →
      (readRequest c g k ⟨true, o / 64, st⟩).address + o % 64 =
        if c.fields.flags.noSubst then c.fields.destination + c.bytesDone + o
        else (mappingAt ws (c.fields.destination + c.bytesDone + o)).address
          (c.fields.destination + c.bytesDone + o)) ∧
    (∀ (buffer : List Byte) (k j : Nat) (st : UnitState), writeRequest c g buffer k ⟨false, j, st⟩ =
      ⟨.writeUnit k, position c c.fields.destination c.fields.destStride + 64 * j, min 64 (g.length - 64 * j),
        if c.op = .fill then (List.range (min 64 (g.length - 64 * j))).map (fun i =>
          c.fields.pattern.getD ((c.bytesDone + 64 * j + i) % 8) 0)
        else (buffer.drop (64 * j)).take (min 64 (g.length - 64 * j))⟩)

/-- The course of a segment (R72, R74, R75, R77): it starts without a fault in READING, or in WRITING for FILL,
and presents its units one at a time in order, none after a fault. READING ends once no read is presented or
awaited: with the first write presented, or at the boundary after a fault or without writes; WRITING ends at the
boundary likewise. The zeroed buffers at the start are the model's choice (log entry 20). -/
def Obligations.SegmentRunsThroughItsUnits : Prop :=
  (∀ (s : State) (c : Context), s.disp.active = some c →
    startSegment s = presentUnit { s with lane := ⟨if c.op = .fill then .writing else .reading,
      some (planSegment s.wins s.ctl.segmentSize c), .none, emptyBuffer, emptyBuffer⟩ }) ∧
  (∀ (s : State) (c : Context) (g : Segment), s.disp.active = some c → s.lane.segment = some g →
    (∀ k u, s.lane.fault = .none → s.lane.state = .reading → g.reads[k]? = some u → u.state = .waiting →
      (∀ j < k, ∀ x, g.reads[j]? = some x → x.state ≠ .waiting) →
      presentUnit s = { s with
        lane := { s.lane with segment := some { g with reads := setUnit g.reads k .presented } }
        port := { s.port with lane := some (readRequest c g k u) } }) ∧
    (∀ k u, s.lane.fault = .none → s.lane.state = .writing → g.writes[k]? = some u → u.state = .waiting →
      (∀ j < k, ∀ x, g.writes[j]? = some x → x.state ≠ .waiting) →
      presentUnit s = { s with
        lane := { s.lane with segment := some { g with writes := setUnit g.writes k .presented } }
        port := { s.port with lane := some (writeRequest c g s.lane.buffer1 k u) } }) ∧
    (s.lane.fault ≠ .none ∨ (s.lane.state = .reading ∧ ∀ u ∈ g.reads, u.state ≠ .waiting) ∨
      (s.lane.state = .writing ∧ ∀ u ∈ g.writes, u.state ≠ .waiting) → presentUnit s = s) ∧
    ((∃ u ∈ g.reads, u.state = .presented ∨ u.state = .granted) → endReading s = s) ∧
    ((∀ u ∈ g.reads, u.state ≠ .presented ∧ u.state ≠ .granted) →
      endReading s = if s.lane.fault = .none ∧ g.writes ≠ [] then
        presentUnit { s with lane := { s.lane with state := .writing } } else boundaryOf s c g) ∧
    ((∃ u ∈ g.writes, u.state = .presented ∨ u.state = .granted) → endWriting s = s) ∧
    ((∀ u ∈ g.writes, u.state ≠ .presented ∧ u.state ≠ .granted) → endWriting s = boundaryOf s c g)) ∧
  ∀ (us : List TransferUnit) (k : Nat) (st : UnitState) (j : Nat),
    (setUnit us k st)[j]? = (us[j]?).map (fun u => if j = k then { u with state := st } else u)

/-! ## The Dispatcher -/

/-- The best candidate (R49 to R52): a candidate is a head to execute of an ACTIVE ring without a dispatched
command, with a credit if it waits for one and an ACTIVE completion ring, in RUNNING, and no other ring of its
level has an OPEN chain. The best is of the most urgent level that has a candidate: the one whose chain is OPEN,
else the first of the search that starts after the level's pointer. -/
def Obligations.BestCandidateIsChosen : Prop :=
  ∀ s : State,
    (∀ n, s.candidate n = true ↔ n ≠ 0 ∧ s.ctl.engine = .running ∧ (s.sr n).state = .active ∧
      (s.sr n).dispatched = false ∧ (s.cr (s.sr n).bound).state = .active ∧
      (∃ h op, (s.sr n).head = .transfer h ∧ h.settlement = .execute op ∧
        (h.fields.flags.trigWait = true → 0 < (s.trig h.fields.line).credits)) ∧
      ∀ x, x ≠ 0 → x ≠ n → (s.sr x).carry ≠ .closed → (s.sr x).level ≠ (s.sr n).level) ∧
    (s.best = none ↔ ∀ n, s.candidate n = false) ∧
    ∀ n, s.best = some n → s.candidate n = true ∧
      (∀ m, s.candidate m = true → (s.sr n).level ≤ (s.sr m).level) ∧
      (∀ m, s.candidate m = true → (s.sr m).level = (s.sr n).level → (s.sr m).carry ≠ .closed → m = n) ∧
      ((s.sr n).carry = .closed → ∀ m, s.candidate m = true → (s.sr m).level = (s.sr n).level →
        searchDistance (s.pointer (s.sr n).level) n ≤ searchDistance (s.pointer (s.sr n).level) m)

/-- A dispatch (R30, R39, R53, R54, R116, Tables 2.8 and 3.3): the head slot empties, the dispatched marker is
set, the context formed from the head becomes active, the level's pointer names the ring, the watch entry follows
the command, and a TRIG_WAIT command takes one credit of its line. Nothing else changes. -/
def Obligations.DispatchFormsContext : Prop :=
  ∀ (s : State) (n : Fin 16) (h : HeadCmd) (op : Opcode), (s.sr n).head = .transfer h →
    h.settlement = .execute op →
    dispatch s n = { s with
      srs := s.srs.set n { s.sr n with head := .empty, dispatched := true }
      trigs := if h.fields.flags.trigWait = true then
          s.trigs.set h.fields.line { s.trig h.fields.line with credits := (s.trig h.fields.line).credits - 1 }
        else s.trigs
      time := { s.time with watch := s.time.watch.map (fun e =>
        if e.ring = n ∧ e.place = .head then { e with place := .active } else e) }
      disp := { s.disp with
        pointers := s.disp.pointers.set (s.sr n).level n
        active := some
          { ring := n, op := op, fields := h.fields, continuation := h.continuation, level := (s.sr n).level
            total := match op with
              | .copy2d => h.fields.rows * h.fields.rowLength
              | .mark => 0
              | _ => h.fields.length
            bytesDone := 0, row := 0, rowOffset := 0
            crc := if h.fields.flags.crc = false then none
              else if h.fields.flags.crcSeed = false then some 0xFFFFFFFF#32
              else match h.continuation, (s.sr n).carry with
                | true, .opened (some x) => some (x ^^^ 0xFFFFFFFF#32)
                | _, _ => some (h.fields.seed ^^^ 0xFFFFFFFF#32)
            expiry := if h.fields.budget = 0 then none
              else some (h.admitted + BitVec.ofNat 32 h.fields.budget)
            late := h.late, preempted := false, substituted := false, request := none } } }

/-- The decisions (R37, R56, R57, R59, R60, R62 to R64, R66, R68, R82): (a) is taken in RUNNING on a free lane
with a candidate; (b) at a boundary preempts, goes on, pauses or holds; (c) dispatches the best candidate or
resumes the top of the stack; a MARK ends at its dispatch with the tick as its result, and (c) is taken again, as
often as MARKs are found. The bound on them is the model's and is never reached (log entry 16); an empty lane's zero
buffers and absent segment fault are the model's choice (log entry 20). -/
def Obligations.DecisionsFollowTables : Prop :=
  (∀ s : State, decisionA s = if s.ctl.engine = .running ∧ s.disp.active = none ∧ s.best ≠ none then
    decisionC markFuel s else s) ∧
  (∀ (s : State) (k : Nat), decisionC (markFuel + k) s = decisionC markFuel s) ∧
  (∀ (s : State) (k : Nat),
    (s.best = none → s.disp.stack = [] → decisionC (k + 1) s = s) ∧
    (∀ n, s.best = some n → (∀ a ∈ s.disp.stack.head?, (s.sr n).level < a.level) →
      decisionC (k + 1) s = startOrMark (decisionC k) (dispatch s n)) ∧
    (∀ a rest, s.disp.stack = a :: rest → (∀ n, s.best = some n → a.level ≤ (s.sr n).level) →
      decisionC (k + 1) s = startSegment { s with
        disp := { s.disp with active := some a, stack := rest }
        time := { s.time with watch := s.time.watch.map (fun e =>
          if e.ring = a.ring ∧ e.place = .suspended then { e with place := .active } else e) } })) ∧
  (∀ (s : State) (next : State → State) (c : Context), s.disp.active = some c →
    (c.op ≠ .mark → startOrMark next s = startSegment s) ∧
    (c.op = .mark → startOrMark next s = next (endActive s c .success s.time.tick))) ∧
  (∀ (s : State) (c : Context) (st : Status) (v : Word32), endActive s c st v = closeAbort (endDispatched
    { s with disp := { s.disp with active := none }, lane := Lane.cleared } c st v)) ∧
  (∀ s : State,
    (s.ctl.engine = .running → afterEnd s = decisionC markFuel s) ∧
    (s.ctl.engine = .pausing → afterEnd s = { s with ctl := { s.ctl with engine := .paused } }) ∧
    (s.ctl.engine ≠ .running → s.ctl.engine ≠ .pausing → afterEnd s = s)) ∧
  ∀ (s : State) (c : Context), ∃ pushed : State,
    pushed = { s with
      disp := { s.disp with active := none, stack := { c with preempted := true } :: s.disp.stack }
      lane := Lane.cleared
      time := { s.time with watch := s.time.watch.map (fun e =>
        if e.ring = c.ring ∧ e.place = .active then { e with place := .suspended } else e) } } ∧
    (s.ctl.engine = .running ∨ s.ctl.engine = .pausing → c.fields.flags.noPreempt = true →
      decisionB s c = startSegment s) ∧
    (s.ctl.engine = .running → (∀ n, s.best = some n → c.level ≤ (s.sr n).level) →
      decisionB s c = startSegment s) ∧
    (∀ n, s.ctl.engine = .running → c.fields.flags.noPreempt = false → s.best = some n →
      (s.sr n).level < c.level → decisionB s c = startOrMark (decisionC markFuel) (dispatch pushed n)) ∧
    (s.ctl.engine = .pausing → c.fields.flags.noPreempt = false →
      decisionB s c = { pushed with ctl := { s.ctl with engine := .paused } }) ∧
    (s.ctl.engine = .halted → decisionB s c = { s with lane := { Lane.cleared with state := .held } })

/-- What follows a completion (R17, R43 to R45, R48). A chain member's SUCCESS closes the chain without CHAIN or
with no successor posted, else opens it with the CRC it computed; a failure closes it, and with CHAIN breaks the
link and settles an unsettled continuation in the head slot SKIPPED; ABORTED changes nothing. A settled head
drains in a working engine once the dispatched marker is clear, and a member's drain closes the chain. A pending
level is applied once the ring has no chain in progress. A continuation settled SKIPPED is watched no longer, since
it has no expiry (Section 6.3, Table 6.2); that its entry leaves the watch list at the settlement, in HALTED too,
is the model's reading (log entry 13). -/
def Obligations.ChainRulesAndDrain : Prop :=
  (∀ (s : State) (c : Context) (st : Status) (v : Word32) (r : SubRing), s.sr c.ring = r →
    (c.continuation = false ∧ c.fields.flags.chain = false ∨ st = .aborted → chainAfter s c st v = s) ∧
    (c.continuation = true ∨ c.fields.flags.chain = true →
      (st = .success → chainAfter s c st v = s.setSr c.ring (
        if c.fields.flags.chain = false then { r with carry := .closed }
        else if r.head = .empty ∧ r.producer = r.consumer then { r with carry := .closed, link := .unlinked }
        else { r with carry := .opened (if c.crc.isSome then some v else match r.carry with
          | .opened x => x
          | .closed => none) })) ∧
      (st ∈ [.mismatch, .readFault, .writeFault, .deadlineMissed] →
        (c.fields.flags.chain = false → chainAfter s c st v = s.setSr c.ring { r with carry := .closed }) ∧
        (c.fields.flags.chain = true → ∀ l : ChainLink, l = (if r.link = .linked then .broken else r.link) →
          (∀ h op, r.head = .transfer h → h.continuation = true → h.settlement = .execute op →
            chainAfter s c st v = (s.setSr c.ring { r with
              carry := .closed, link := l
              head := .transfer { h with settlement := .settled .skipped 0 } }).unwatch c.ring .head) ∧
          ((∀ h op, r.head = .transfer h → h.continuation = true → h.settlement ≠ .execute op) →
            chainAfter s c st v = s.setSr c.ring { r with carry := .closed, link := l }))))) ∧
  (∀ (s : State) (n : Fin 16) (h : HeadCmd) (st : Status) (v : Word32), (s.sr n).head = .transfer h →
    h.settlement = .settled st v → st ∈ [.invalid, .skipped, .deadlineMissed] →
    (s.works = true → (s.sr n).dispatched = false → drainHead s n =
      (produce s (s.sr n).bound ⟨h.fields.tag, n, st, (s.sr n).consumer, false, false, false, false, v, 0,
        h.fields.flags.noIntr && st = .deadlineMissed⟩).setSr n { s.sr n with
          head := .empty
          carry := if h.continuation = true ∨ h.fields.flags.chain = true then .closed else (s.sr n).carry }) ∧
    (s.works = false ∨ (s.sr n).dispatched = true → drainHead s n = s)) ∧
  (∀ (s : State) (n : Fin 16), (∀ h st v, (s.sr n).head = .transfer h → h.settlement ≠ .settled st v) →
    drainHead s n = s) ∧
  ∀ (s : State) (n : Fin 16),
    ((s.disp.contexts.map (fun c => c.ring)).Nodup → (s.chainInProgress n = true ↔ (s.sr n).carry ≠ .closed ∨
      ∃ c ∈ s.disp.contexts, c.ring = n ∧ c.continuation = false ∧ c.fields.flags.chain = true)) ∧
    ((s.sr n).pendingLevel = none ∨ s.chainInProgress n = true → applyPending s n = s) ∧
    (∀ l, (s.sr n).pendingLevel = some l → s.chainInProgress n = false →
      applyPending s n = s.setSr n { s.sr n with level := l, pendingLevel := none })

/-- The planned segment (R29, R95): within the segment size and the bytes left, every byte of a mapped
input under the governing window of its first byte, and no longer run satisfies this. What is left is counted to
the end of the command, or of the row of a COPY2D; the mapped inputs are the source, and for COMPARE both inputs,
unless NO_SUBST is set (R94). -/
def Obligations.SegmentIsLongestRun : Prop :=
  ∀ (ws : Vector Window 8) (size : Nat) (c : Context),
    c.remaining = (if c.op = .copy2d then c.fields.rowLength - c.rowOffset else c.total - c.bytesDone) ∧
    c.mappedInputs = (if c.fields.flags.noSubst = true ∨ c.op = .fill ∨ c.op = .mark then []
      else if c.op = .compare then [c.fields.source + c.bytesDone, c.fields.destination + c.bytesDone]
      else [position c c.fields.source c.fields.sourceStride]) ∧
    segmentLength ws size c ≤ size ∧ segmentLength ws size c ≤ c.remaining ∧
    (∀ a ∈ c.mappedInputs, ∀ i < segmentLength ws size c, governing ws (a + i) = governing ws a) ∧
    (segmentLength ws size c = size ∨ segmentLength ws size c = c.remaining ∨
      ∃ a ∈ c.mappedInputs, governing ws (a + segmentLength ws size c) ≠ governing ws a)

/-- The governing window of an address is the lowest-numbered enabled window whose range holds it, and a
byte is read at the substitute address under it, or at its own address without one (R93). -/
def Obligations.GoverningIsLowestEnabled : Prop :=
  ∀ (ws : Vector Window 8) (a : Nat),
    (∀ i : Fin 8, governing ws a = some i ↔
      ((ws.get i).enabled = true ∧ (ws.get i).matchBase ≤ a ∧
        a < (ws.get i).matchBase + (ws.get i).matchLength) ∧
      ∀ j < i, ¬ ((ws.get j).enabled = true ∧ (ws.get j).matchBase ≤ a ∧
        a < (ws.get j).matchBase + (ws.get j).matchLength)) ∧
    (governing ws a = none ↔ ∀ i : Fin 8, ¬ ((ws.get i).enabled = true ∧ (ws.get i).matchBase ≤ a ∧
      a < (ws.get i).matchBase + (ws.get i).matchLength)) ∧
    (∀ i, governing ws a = some i → (mappingAt ws a).address a =
      (ws.get i).substituteBase + (a - (ws.get i).matchBase)) ∧
    (governing ws a = none → (mappingAt ws a).address a = a)

/-- A run seeded with the CRC of an earlier run ends with the CRC of both (R39); the check value of R38. -/
def Obligations.CrcSeedsContinue : Prop :=
  (∀ (x : Word32) (as bs : List Byte),
    crcFinal (crcRun (crcFinal (crcFinal (crcRun x as))) bs) = crcFinal (crcRun x (as ++ bs))) ∧
  crcFinal (crcRun 0xFFFFFFFF#32 [0x31#8, 0x32#8, 0x33#8, 0x34#8, 0x35#8, 0x36#8, 0x37#8, 0x38#8, 0x39#8]) = 0xE3069283#32

/-! ## The Completion Unit -/

/-- The Completion Unit presents (R18, R85, R129, R173). With nothing presented, the first ring after the one whose
write it last presented, in ascending order with wrap, that has a write waiting presents it: its message, when one is
due, as the vector's data word at the vector's address; else its oldest record, sixteen bytes with the ring's phase,
at base + P × 16. A ring has at most one write presented or in flight. The rows COMPLETION_WRITE_ISSUE and
MESSAGE_WRITE_ISSUE are this event, as is the presentation at a grant (log entry 19), and one that is not allowed
changes nothing (the model's choice, log entry 2). The sixteen bytes are those of Table 11.6, with the status codes of
Table 11.7; CR0's vector is the one of SET_ENGINE (R135). -/
def Obligations.CompletionUnitPresents : Prop :=
  (∀ (rec : CplRecord) (phase : Bool), (rec.bytes phase).length = 16 ∧
    ∀ f ∈ ([(0, 2, rec.tag.toNat), (2, 1, rec.srId.val), (3, 1, rec.status.code), (4, 2, rec.srHead),
        (6, 1, (if rec.late then 1 else 0) + (if rec.preempted then 2 else 0) + (if rec.substituted then 4 else 0) +
          if rec.chainOpen then 8 else 0),
        (7, 1, if phase then 1 else 0), (8, 4, rec.result.toNat), (12, 4, rec.bytesDone)] : List (Nat × Nat × Nat)),
      littleEndian (((rec.bytes phase).drop f.1).take f.2.1) = f.2.2 % 256 ^ f.2.1) ∧
  [Status.success, .mismatch, .invalid, .readFault, .writeFault, .deadlineMissed, .aborted, .skipped].map Status.code =
    [0, 1, 2, 3, 4, 5, 6, 7] ∧
  [Status.ok, .unknown, .badField, .noRing, .ringExists, .inUse, .wrongState, .locked, .bufferFault].map Status.code =
    [0, 0x81, 0x82, 0x83, 0x84, 0x85, 0x86, 0x87, 0x88] ∧
  (∀ (s : State) (n : Fin 8), s.vectorOf n = if n = 0 then s.ctl.crVector else (s.cr n).vector) ∧
  (∀ (s : State) (n : Fin 8),
    (∀ rec rest, s.port.completion = none → turnOf s n → recordMay s n → (s.cr n).outbound = rec :: rest →
      ∃ t, exec (.completionWriteIssue n) s = .next t ∧ exec (.messageWriteIssue n) s = .next s ∧
        presentCompletion s = t ∧ t = { s with
          crs := s.crs.set n { s.cr n with recordWrite := true }
          cplLast := n
          port := { s.port with
            completion := some (⟨.completionWrite n, (s.cr n).base + (s.cr n).producer * 16, 16,
            rec.bytes (s.cr n).phase⟩ : Request) } }) ∧
    (s.port.completion = none → turnOf s n → messageMay s n →
      ∃ t, exec (.messageWriteIssue n) s = .next t ∧ exec (.completionWriteIssue n) s = .next s ∧
        presentCompletion s = t ∧ t = { s with
          crs := s.crs.set n { s.cr n with message := .inFlight }
          cplLast := n
          port := { s.port with
            completion := some (⟨.messageWrite n, (s.vectorOf n).address.toNat, 4,
            leBytes 4 (s.vectorOf n).data.toNat⟩ : Request) } }) ∧
    (s.port.completion ≠ none ∨ ¬ turnOf s n →
      exec (.completionWriteIssue n) s = .next s ∧ exec (.messageWriteIssue n) s = .next s)) ∧
  ∀ s : State, s.port.completion ≠ none ∨ (∀ n, ¬ turnOf s n) → presentCompletion s = s

/-- A record write is acknowledged (R18, R127): the record leaves the list, the reserved count falls, the
producer index advances, the phase toggles on a wrap to 0, and U and the timer follow NO_INTR. An ABORT_SR
that waits for its ring's records may then finish (R149). -/
def Obligations.RecordAcknowledged : Prop :=
  ∀ (s : State) (t : Transaction) (n : Fin 8) (rec : CplRecord) (rest : List CplRecord),
    s.awaits t → t.request.kind = .completionWrite n → s.ctl.engine ≠ .resetting →
    s.leftWrite n = false → (s.cr n).resetWrite = false → (s.cr n).outbound = rec :: rest →
    ∃ p, exec (.completionWriteAck t.id) s = .next (abortFinish p) ∧
      p.cr n = { s.cr n with
        outbound := rest
        reserved := (s.cr n).reserved - 1
        producer := ((s.cr n).producer + 1) % 2 ^ (s.cr n).log2
        phase := if ((s.cr n).producer + 1) % 2 ^ (s.cr n).log2 = 0 then !(s.cr n).phase
          else (s.cr n).phase
        recordWrite := false
        unsignalled := if rec.noIntr then (s.cr n).unsignalled else min 4095 ((s.cr n).unsignalled + 1)
        timer := if !rec.noIntr && (s.cr n).unsignalled = 0 then .running s.time.tick
          else (s.cr n).timer } ∧
      (∀ j, j ≠ n → p.cr j = s.cr j) ∧ p.srs = s.srs ∧ sameBlocks s p ∧ p.time = s.time ∧
      p.admin = s.admin ∧ p.port = { s.port with outstanding := without s t.id }

/-- A record write fails (R19, R21): the ring becomes FAULTED, its whole outbound list is discarded, the
producer index and the phase stay, and CR_WRITE is reported with the address written; for CR0 ADMIN_WRITE is
reported, and a working engine enters HALTED (R161). A message write withdrawn there is in flight no longer, and an
arm held behind it is dropped: the model's reading (log entry 8). -/
def Obligations.RecordWriteFailureFaultsRing : Prop :=
  ∀ (s : State) (t : Transaction) (n : Fin 8), s.awaits t → t.request.kind = .completionWrite n →
    s.ctl.engine ≠ .resetting → s.leftWrite n = false → (s.cr n).resetWrite = false →
    ∃ p m, m.val = n.val ∧
      (n ≠ 0 → exec (.completionWriteError t.id) s = .next (abortFinish (reportFault p .crWrite m
        ((s.cr n).base + (s.cr n).producer * 16)))) ∧
      (n = 0 → exec (.completionWriteError t.id) s = .next (halted (reportFault p .adminWrite 0
        ((s.cr n).base + (s.cr n).producer * 16)))) ∧
      p.cr n = { s.cr n with
        state := .faulted, outbound := [], recordWrite := false
        reserved := (s.cr n).reserved - (s.cr n).outbound.length
        discarded := min 0xFFFFFFFF ((s.cr n).discarded + (s.cr n).outbound.length) } ∧
      (∀ j, j ≠ n → p.cr j = s.cr j) ∧ p.srs = s.srs ∧ sameBlocks s p ∧ p.time = s.time ∧ p.admin = s.admin ∧
      p.port = { s.port with outstanding := without s t.id }

/-- Success and error of a write whose ring was reset or deleted meanwhile act alike. After RESET_CR a record
write's record is discarded, and indices, phase and state stay as the reset set them (R20); a message write only
returns to none (R133). After DELETE_CR the answer only clears the marker of the write left in flight (R133,
R141). No fault is reported. -/
def Obligations.ResetRingIgnoresAnswer : Prop :=
  (∀ (s : State) (t : Transaction) (n : Fin 8) (rec : CplRecord) (rest : List CplRecord),
    s.awaits t → t.request.kind = .completionWrite n → s.ctl.engine ≠ .resetting →
    s.leftWrite n = false → (s.cr n).resetWrite = true → (s.cr n).outbound = rec :: rest →
    exec (.completionWriteError t.id) s = exec (.completionWriteAck t.id) s ∧
    ∃ p, exec (.completionWriteAck t.id) s = .next (abortFinish p) ∧
      p.cr n = { s.cr n with
        outbound := rest
        reserved := (s.cr n).reserved - 1
        discarded := min 0xFFFFFFFF ((s.cr n).discarded + 1)
        recordWrite := false, resetWrite := false } ∧ (∀ j, j ≠ n → p.cr j = s.cr j) ∧ p.srs = s.srs ∧
      sameBlocks s p ∧ p.time = s.time ∧ p.admin = s.admin ∧
      p.port = { s.port with outstanding := without s t.id }) ∧
  (∀ (s : State) (t : Transaction) (n : Fin 8) (ok : Bool) (d : Line),
    s.awaits t → t.request.kind = .messageWrite n → s.ctl.engine ≠ .resetting →
    s.leftWrite n = false → (s.cr n).resetWrite = true →
    exec (answerOf t ok d) s = .next ({ s with port := { s.port with outstanding := without s t.id } }.setCr n
      { s.cr n with message := .none, resetWrite := false })) ∧
  ∀ (s : State) (t : Transaction) (n : Fin 8) (ok : Bool) (d : Line), s.awaits t →
    t.request.kind = .completionWrite n ∨ t.request.kind = .messageWrite n →
    s.ctl.engine ≠ .resetting → s.leftWrite n = true →
    exec (answerOf t ok d) s = .next { s with
      leftWrites := s.leftWrites.set n false
      port := { s.port with outstanding := without s t.id } }

/-- A message write answered with success (R130): U 0, disarmed, timer absent, the write none, and a held
arm applied, which sets the armed flag and starts no timer. -/
def Obligations.MessageAcknowledged : Prop :=
  ∀ (s : State) (t : Transaction) (n : Fin 8), s.awaits t → t.request.kind = .messageWrite n →
    s.ctl.engine ≠ .resetting → s.leftWrite n = false → (s.cr n).resetWrite = false →
    ∃ p, exec (.messageWriteAck t.id) s = .next p ∧
      p.cr n = { s.cr n with
        unsignalled := 0
        armed := decide ((s.cr n).message = .inFlightArmHeld)
        timer := .absent
        message := .none } ∧
      (∀ j, j ≠ n → p.cr j = s.cr j) ∧ p.srs = s.srs ∧ sameBlocks s p ∧ p.time = s.time ∧
      p.admin = s.admin ∧ p.port = { s.port with outstanding := without s t.id }

/-- A failed message write acts as an acknowledged one and reports MSG_WRITE with the ring and the vector's
address, taken as the address the message was issued to (R131; log entry 9). -/
def Obligations.MessageFailureIsReported : Prop :=
  ∀ (s : State) (t : Transaction) (n : Fin 8), s.awaits t → t.request.kind = .messageWrite n →
    s.ctl.engine ≠ .resetting → s.leftWrite n = false → (s.cr n).resetWrite = false →
    ∃ p m, m.val = n.val ∧ exec (.messageWriteAck t.id) s = .next p ∧
      exec (.messageWriteError t.id) s = .next (reportFault p .msgWrite m t.request.address)

/-- A report reaches the capture (R167): the first is captured whole and owes a message while the fault
vector is enabled, up to 255 (R170); a later one only sets MORE. FAULT_CLEAR clears VALID and MORE and
keeps the kind, ring and address (R169). FAULT_N follows VALID (R168). Fault messages are issued one at a
time while one is owed and the engine is neither OFF nor RESETTING, at the vector in force; the answer, success
or error, lowers the owed count by one (R170). An issue that is not allowed changes nothing (the model's choice,
log entry 2). FAULT, FADDRL and FADDRH read the capture (R168, Tables 11.2 and 11.3). -/
def Obligations.FaultsAreCapturedAndMessaged : Prop :=
  [FaultKind.none, .adminConfig, .notifyAbsent, .notifyRange, .srFetch, .crWrite, .msgWrite, .adminFetch,
    .adminWrite].map FaultKind.code = [0, 1, 2, 3, 4, 5, 6, 7, 8] ∧
  (∀ s : State, s.faultN = !s.ctl.capture.valid ∧
    readRegister s 0x24 = BitVec.ofNat 32 ((if s.ctl.capture.valid then 1 else 0) +
      (if s.ctl.capture.more then 2 else 0) + 2 ^ 8 * s.ctl.capture.kind.code + 2 ^ 16 * s.ctl.capture.ring.val) ∧
    readRegister s 0x28 = BitVec.ofNat 32 s.ctl.capture.address.toNat ∧
    readRegister s 0x2C = BitVec.ofNat 32 (s.ctl.capture.address.toNat / 2 ^ 32)) ∧
  (∀ (s : State) (k : FaultKind) (n : Fin 16) (a : Nat),
    (s.ctl.capture.valid = false → reportFault s k n a = { s with ctl := { s.ctl with
      capture := ⟨true, false, k, n, BitVec.ofNat 48 a⟩
      owed := if s.ctl.faultVector.enabled then min 255 (s.ctl.owed + 1) else s.ctl.owed } }) ∧
    (s.ctl.capture.valid = true → reportFault s k n a = { s with ctl := { s.ctl with
      capture := { s.ctl.capture with more := true } } }) ∧
    (reportFault s k n a).faultN = false ∧
    ∃ t, exec .faultClear s = .next t ∧ t.faultN = true ∧
      t = { s with ctl := { s.ctl with capture := { s.ctl.capture with valid := false, more := false } } }) ∧
  ∀ s : State,
    (0 < s.ctl.owed → s.ctl.faultWrite = false → decodes s →
      exec .faultMessageIssue s = .next { s with
        ctl := { s.ctl with faultWrite := true }
        port := { s.port with control := some ⟨.faultMessage, s.ctl.faultVector.address.toNat, 4,
          leBytes 4 s.ctl.faultVector.data.toNat⟩ } }) ∧
    (s.ctl.owed = 0 ∨ s.ctl.faultWrite = true ∨ ¬ decodes s → exec .faultMessageIssue s = .next s) ∧
    (∀ t ok, s.awaits t → t.request.kind = .faultMessage → s.ctl.engine ≠ .resetting →
      exec (.faultMessageAnswer t.id ok) s = .next { s with
        ctl := { s.ctl with owed := s.ctl.owed - 1, faultWrite := false }
        port := { s.port with outstanding := without s t.id } })

/-! ## Time and triggers -/

/-- The prescaler and the tick counter (R101), in every engine state: the prescaler rises below the divider,
and at or above it returns to 0 as the counter rises by one, wrapping to 0. -/
def Obligations.PrescalerAndTick : Prop :=
  ∀ s : State,
    (s.time.prescaler < s.ctl.tickDivider → exec .prescalerCount s = .next { s with
      time := { s.time with prescaler := s.time.prescaler + 1 } }) ∧
    (s.ctl.tickDivider ≤ s.time.prescaler → exec .tickAdvance s = .next { s with
      time := { s.time with prescaler := 0, tick := s.time.tick + 1 } })

/-- An expiry without ABORT_ON_MISS marks the command LATE where it is held. With ABORT_ON_MISS it settles a
head DEADLINE_MISSED, records a termination request on the active command unless it carries one, and removes
a suspended context at once (R105 to R108, R45, R61); what a settled head brings about follows in the event. It is
taken in RUNNING, PAUSING, PAUSED and HALTED once the budget has run out (R105, R111), then or later, by the modular
difference (log entry 11); before that, in OFF and in RESETTING, or of a command that is not watched, it changes
nothing (the model's choice, log entry 2). That a settled head tries decision (a) is log entry 16. -/
def Obligations.ExpiryActsWhereHeld : Prop :=
  (∀ (s : State) (n : Fin 16) (p : Place), ¬ decodes s ∨
      (∀ e ∈ s.time.watch, e.ring = n → e.place = p → (s.time.tick - e.admitted).toNat < e.budget) →
    exec (.deadlineExpiry n p) s = .next s) ∧
  ∀ (s : State) (n : Fin 16) (e : WatchEntry), decodes s →
    e.budget ≤ (s.time.tick - e.admitted).toNat →
    (∀ h op, s.watchEntry n .head = some e → (s.sr n).head = .transfer h → h.settlement = .execute op →
      h.fields.flags.abortOnMiss = false → exec (.deadlineExpiry n .head) s = .next
        ((s.unwatch n .head).setSr n { s.sr n with head := .transfer { h with late := true } })) ∧
    (∀ c, s.watchEntry n .active = some e → s.disp.active = some c → c.ring = n →
      c.fields.flags.abortOnMiss = false → exec (.deadlineExpiry n .active) s = .next
        { s.unwatch n .active with disp := { s.disp with active := some { c with late := true } } }) ∧
    (∀ c, s.watchEntry n .suspended = some e → s.disp.stack.find? (fun x => x.ring = n) = some c →
      c.fields.flags.abortOnMiss = false → exec (.deadlineExpiry n .suspended) s = .next
        { s.unwatch n .suspended with disp := { s.disp with
          stack := s.disp.stack.map (fun x => if x.ring = n then { x with late := true } else x) } }) ∧
    (∀ h op, s.watchEntry n .head = some e → (s.sr n).head = .transfer h → h.settlement = .execute op →
      h.fields.flags.abortOnMiss = true → exec (.deadlineExpiry n .head) s = .next
        (decisionA (closeAbort (applyPending (drainHead ((s.unwatch n .head).setSr n { s.sr n with
          head := .transfer { h with settlement := .settled .deadlineMissed 0 }
          link := if h.fields.flags.chain then .broken else (s.sr n).link }) n) n)))) ∧
    (∀ c, s.watchEntry n .active = some e → s.disp.active = some c → c.ring = n →
      c.fields.flags.abortOnMiss = true → exec (.deadlineExpiry n .active) s = .next
        { s.unwatch n .active with disp := { s.disp with active := some { c with
          request := if c.request = none then some .deadlineMissed else c.request } } }) ∧
    (∀ c, s.watchEntry n .suspended = some e → s.disp.stack.find? (fun x => x.ring = n) = some c →
      c.fields.flags.abortOnMiss = true → exec (.deadlineExpiry n .suspended) s = .next
        (closeAbort (endDispatched { s.unwatch n .suspended with disp := { s.disp with
          stack := s.disp.stack.filter (fun x => x.ring ≠ n) } } c .deadlineMissed 0)))

/-- The running coalesce timer elapses when a non-zero coalesce time has passed, and not before (R128): the
event then changes nothing (the model's choice, log entry 2). The start tick is kept (log entry 12). -/
def Obligations.CoalesceTimerElapses : Prop :=
  ∀ (s : State) (n : Fin 8) (b : Tick), (s.cr n).timer = .running b →
    ((s.cr n).coalesceTime ≠ 0 → (s.cr n).coalesceTime ≤ (s.time.tick - b).toNat →
      exec (.coalesceTimerElapse n) s = .next (s.setCr n { s.cr n with timer := .elapsed b })) ∧
    ((s.cr n).coalesceTime = 0 ∨ (s.time.tick - b).toNat < (s.cr n).coalesceTime →
      exec (.coalesceTimerElapse n) s = .next s)

/-- A sample of a trigger input (R113): one equal to the filtered level returns the run count to 0, one that
differs with the run count below F raises it, and one that differs with the run count at F is accepted: the
filtered level takes the sampled value and the run count returns to 0. -/
def Obligations.TriggerSampleFilters : Prop :=
  ∀ (s : State) (i : Fin 8) (v : Bool),
    (v = (s.trig i).filtered →
      exec (.triggerSample i v) s = .next (s.setTrig i { s.trig i with runCount := 0 })) ∧
    (v ≠ (s.trig i).filtered → (s.trig i).runCount < (s.trig i).filterLength →
      exec (.triggerSample i v) s =
        .next (s.setTrig i { s.trig i with runCount := (s.trig i).runCount + 1 })) ∧
    (v ≠ (s.trig i).filtered → (s.trig i).filterLength ≤ (s.trig i).runCount →
      ∃ t, exec (.triggerSample i v) s = .next t ∧ (t.trig i).filtered = v ∧ (t.trig i).runCount = 0 ∧
        ∀ j, j ≠ i → (t.trig j).filtered = (s.trig j).filtered ∧ (t.trig j).runCount = (s.trig j).runCount)

/-- An accepted change, as a row of its own or as the sample that completes the run: a change that the edge
select counts raises the credits or at 255 sets the overrun flag, another one changes the filtered level (and
with it the run count, R113) and nothing else (R114); only a rise from 0 may take decision (a) (R117). That the
row and the completing sample are one event is the model's reading (log entry 15). -/
def Obligations.AcceptedChangeCountsCredit : Prop :=
  ∀ (s : State) (i : Fin 8), (s.trig i).filterLength ≤ (s.trig i).runCount →
    ∀ c ∈ [Instr.triggerChangeAccepted i, .triggerSample i (!(s.trig i).filtered)],
    ∃ p counted, (counted = true ↔ (s.trig i).edge = .both ∨
        ((s.trig i).edge = .rising ∧ (s.trig i).filtered = false) ∨
        ((s.trig i).edge = .falling ∧ (s.trig i).filtered = true)) ∧
      p = s.setTrig i { s.trig i with
        filtered := !(s.trig i).filtered
        runCount := 0
        credits := if counted && (s.trig i).credits < 255 then (s.trig i).credits + 1
          else (s.trig i).credits
        overrun := (s.trig i).overrun || (counted && 255 ≤ (s.trig i).credits) } ∧
      (counted = true → (s.trig i).credits = 0 → exec c s = .next (decisionA p)) ∧
      (counted = false ∨ (s.trig i).credits ≠ 0 → exec c s = .next p)

/-! ## The administrative commands -/

/-- An unknown opcode ends UNKNOWN; a set unused byte or bit, or a parameter out of the range of Table 9.1,
ends BAD_FIELD (R138, R174). Here and in every statement on an administrative command, that the row is the answer
of the SR0 fetch is log entry 1, and that its event tries decision (a) is log entry 16. The opcodes are those of
Table 11.9, the unused positions those that Table 11.10 and the record's frame leave over, and the tag of the
completion is the record's. -/
def Obligations.AdminChecksFirst : Prop :=
  (∀ p ∈ ([(0x40, .createCr), (0x41, .deleteCr), (0x42, .createSr), (0x43, .deleteSr), (0x44, .setLevel),
      (0x45, .pauseSr), (0x46, .resumeSr), (0x47, .abortSr), (0x48, .resetSr), (0x49, .resetCr), (0x4A, .setWindow),
      (0x4B, .clearWindow), (0x4C, .setTrigger), (0x4D, .setEngine), (0x4E, .query), (0x4F, .identify)] :
      List (Nat × AdminOp)), ∀ r : Line, recordAdminOp r = some p.2 ↔ byteAt r 0 = p.1) ∧
  (∀ (op : AdminOp) (r : Line), unusedClear op r = true ↔ unusedZero op r) ∧
  (∀ (s : State) (r : Line) (a : Tick), (s.sr 0).head = .admin r a → s.adminTag.toNat = fieldAt r 4 2) ∧
  ∀ (s : State) (t : Transaction) (r : Line), s.adminReady t →
    (recordAdminOp r = none →
      runsAs (.adminUnknown r) s t r (fun u => completed u .unknown 0)) ∧
    (∀ op, recordAdminOp r = some op → (unusedClear op r = false ∨ ¬ paramsFit op r) →
      runsAs (adminCommand r) s t r (fun u => completed u .badField 0))

/-- CREATE_CR, DELETE_CR and RESET_CR (R140, R141, R151): a new ring with the values of the command and of
Table 8.6; a ring deleted with its marker of a write in flight; a ring reset with its discarded count. The
fields of the deleted ring are the model's choice (log entry 20), and a write is in flight from its
presentation (log entry 8). -/
def Obligations.CompletionRingCommands : Prop :=
  ∀ (s : State) (t : Transaction) (r : Line) (n : Fin 8), s.adminReady t → byteAt r 12 = n.val → n ≠ 0 →
    (plainRecord .createCr r → 1 ≤ byteAt r 13 → byteAt r 13 ≤ 12 → 1 ≤ byteAt r 14 →
      fieldAt r 16 8 % 64 = 0 → fieldAt r 16 8 + 2 ^ byteAt r 13 * 16 ≤ 2 ^ 48 →
      (bitAt r 26 0 = true → fieldAt r 28 8 % 4 = 0 ∧ fieldAt r 28 8 < 2 ^ 48) →
      runsAs (.createCr r) s t r (fun u => if (u.cr n).state = .absent then
          completed (u.setCr n { CplRing.cleared with
            state := .active, base := fieldAt r 16 8, log2 := byteAt r 13, phase := true, armed := true
            vector := ⟨bitAt r 26 0, BitVec.ofNat 64 (fieldAt r 28 8), BitVec.ofNat 32 (fieldAt r 36 4)⟩
            threshold := byteAt r 14, coalesceTime := fieldAt r 24 2 }) .ok 0
        else completed u .ringExists 0)) ∧
    (plainRecord .deleteCr r →
      runsAs (.deleteCr r) s t r (fun u => if (u.cr n).state = .absent then completed u .noRing 0
        else if ∃ m, m ≠ 0 ∧ (u.sr m).state ≠ .absent ∧ (u.sr m).bound = n then completed u .inUse 0
        else completed ((u.setLeftWrite n
          (u.leftWrite n || (u.cr n).recordWrite || (u.cr n).message ≠ .none)).setCr n .cleared) .ok 0)) ∧
    (plainRecord .resetCr r →
      runsAs (.resetCr r) s t r (fun u => if (u.cr n).state = .absent then completed u .noRing 0
        else completed (u.setCr n { u.cr n with
          state := .active, producer := 0, consumer := 0, phase := true, unsignalled := 0, armed := true
          timer := .absent, discarded := 0
          message := if (u.cr n).message = .none then .none else .inFlight
          resetWrite := (u.cr n).recordWrite || (u.cr n).message ≠ .none }) .ok (u.cr n).discarded))

/-- CREATE_SR, DELETE_SR and RESET_SR (R142, R143, R150). The fields of the deleted ring are the model's choice
(log entry 20). -/
def Obligations.SubmissionRingCommands : Prop :=
  ∀ (s : State) (t : Transaction) (r : Line) (n : Fin 16), s.adminReady t → byteAt r 12 = n.val → n ≠ 0 →
    (∀ (l k : Fin 8), plainRecord .createSr r → 1 ≤ byteAt r 13 → byteAt r 13 ≤ 12 →
      byteAt r 14 = l.val → byteAt r 15 = k.val → k ≠ 0 →
      fieldAt r 16 8 % 64 = 0 → fieldAt r 16 8 + 2 ^ byteAt r 13 * 64 ≤ 2 ^ 48 →
      runsAs (.createSr r) s t r (fun u => if (u.sr n).state ≠ .absent then completed u .ringExists 0
        else if (u.cr k).state = .absent then completed u .noRing 0
        else completed (u.setSr n { SubRing.cleared with
          state := if bitAt r 24 0 then .paused else .active
          base := fieldAt r 16 8, log2 := byteAt r 13, bound := k, level := l }) .ok 0)) ∧
    (plainRecord .deleteSr r →
      runsAs (.deleteSr r) s t r (fun u => if (u.sr n).state = .absent then completed u .noRing 0
        else if ((u.sr n).state = .paused ∨ (u.sr n).state = .faulted) ∧ (u.sr n).head = .empty ∧
          (u.sr n).fetchInFlight = false ∧ (u.sr n).dispatched = false
        then completed (u.setSr n .cleared) .ok 0 else completed u .wrongState 0)) ∧
    (plainRecord .resetSr r → ((s.sr n).dispatched = false → (∀ c ∈ s.disp.contexts, c.ring ≠ n)) →
      runsAs (.resetSr r) s t r (fun u => if (u.sr n).state = .absent then completed u .noRing 0
        else if ((u.sr n).state = .paused ∨ (u.sr n).state = .faulted) ∧ (u.sr n).head = .empty ∧
          (u.sr n).fetchInFlight = false ∧ (u.sr n).dispatched = false
        then completed (u.setSr n { u.sr n with
          state := .paused, producer := 0, consumer := 0, link := .unlinked, carry := .closed
          level := (u.sr n).pendingLevel.getD (u.sr n).level, pendingLevel := none }) .ok
          (apart (2 ^ (u.sr n).log2) (u.sr n).producer (u.sr n).consumer)
        else completed u .wrongState 0))

/-- SET_LEVEL (R48, R144): at once, or held pending while the ring has a chain in progress. PAUSE_SR and
RESUME_SR of any rings, or of none (R145, Table 9.2): NO_RING if a named ring is ABSENT, then WRONG_STATE if one
is in a refused state, else every named ring takes its new state and the result names those that changed. -/
def Obligations.LevelPauseResumeCommands : Prop :=
  ∀ (s : State) (t : Transaction) (r : Line), s.adminReady t →
    (∀ (n : Fin 16) (l : Fin 8), plainRecord .setLevel r → byteAt r 12 = n.val → n ≠ 0 → byteAt r 14 = l.val →
      runsAs (.setLevel r) s t r (fun u => if (u.sr n).state = .absent then completed u .noRing 0
        else if u.chainInProgress n = true then
          completed (u.setSr n { u.sr n with pendingLevel := some l }) .ok 1
        else completed (u.setSr n { u.sr n with level := l }) .ok 0)) ∧
    (plainRecord .pauseSr r →
      runsAs (.pauseSr r) s t r (fun u => setNamed u (named r) [.aborting] .active .paused)) ∧
    (plainRecord .resumeSr r →
      runsAs (.resumeSr r) s t r (fun u => setNamed u (named r) [.aborting, .faulted] .paused .active))

/-- The execution event of ABORT_SR (R146, R61): an ABSENT ring ends NO_RING; else the ring becomes ABORTING
with its end state noted. A suspended command of the ring is removed and completed ABORTED at once; an active one
gets a request ABORTED unless it carries one, and the Admin Unit stays busy; a head that is not settled and a
fetch in flight wait for the closing event, which is this one when both markers are clear (R147, R148). -/
def Obligations.AbortStartsInItsEvent : Prop :=
  ∀ (s : State) (t : Transaction) (r : Line) (n : Fin 16), s.adminReady t → plainRecord .abortSr r →
    byteAt r 12 = n.val → n ≠ 0 →
    ((s.sr n).state = .absent → runsAs (.abortSr r) s t r (fun u => completed u .noRing 0)) ∧
    ((s.sr n).state ≠ .absent → (s.sr n).dispatched = false →
      runsAs (.abortSr r) s t r (fun u => closeAbort (aborting u n))) ∧
    (∀ c, (s.sr n).state ≠ .absent → (s.sr n).dispatched = true → s.disp.active = some c → c.ring = n →
      runsAs (.abortSr r) s t r (fun u => { aborting u n with
        disp := { u.disp with active := some { c with
          request := if c.request = none then some .aborted else c.request } } })) ∧
    (∀ c, (s.sr n).state ≠ .absent → (s.sr n).dispatched = true → (∀ a, s.disp.active = some a → a.ring ≠ n) →
      s.disp.stack.find? (fun x => x.ring = n) = some c →
      runsAs (.abortSr r) s t r (fun u => closeAbort (endDispatched { aborting u n with
        disp := { u.disp with stack := u.disp.stack.filter (fun x => x.ring ≠ n) } } c .aborted 0)))

/-- The closing of ABORT_SR (R148, R149), in RUNNING, PAUSING and PAUSED (R139). It waits while the ring has a
fetch in flight or a dispatched command. Then a head that is not settled is completed ABORTED with bytes done 0
and its LATE mark, a settled one drains; the posted records are skipped and counted, the chain closes, a pending
level is applied and the ring takes its noted end state. The command's own completion follows once the bound
ring's outbound list holds no record of the ring, in the same event if none is left. Where the Admin Unit does not wait
for it, neither closing point changes anything. A completion produced enters the tail of its ring's outbound list,
or is discarded where the ring is FAULTED (R15, R21). That a record which an earlier, deleted ring of the same number
left in the list (R143) counts as one of the ring is the model's choice (log entry 23). -/
def Obligations.AbortClosesOnClearMarkers : Prop :=
  (∀ (s : State) (n : Fin 16) (e : Bool), s.admin = .abortMarkers n e →
    (s.works = false ∨ (s.sr n).fetchInFlight = true ∨ (s.sr n).dispatched = true → closeAbort s = s) ∧
    (s.works = true → (s.sr n).fetchInFlight = false → (s.sr n).dispatched = false → (∀ c ∈ s.disp.contexts, c.ring ≠ n) →
      ∃ p, closeAbort s = abortFinish { p.setSr n { p.sr n with
          state := if e then .faulted else .paused
          consumer := (p.sr n).producer, link := .unlinked, carry := .closed
          level := (p.sr n).pendingLevel.getD (p.sr n).level, pendingLevel := none } with
          admin := .abortRecords n (apart (2 ^ (p.sr n).log2) (p.sr n).producer (p.sr n).consumer) } ∧
        ((s.sr n).head = .empty → p = s) ∧
        (∀ h st v, (s.sr n).head = .transfer h → h.settlement = .settled st v → p = drainHead s n) ∧
        (∀ h op, (s.sr n).head = .transfer h → h.settlement = .execute op →
          p = ((produce s (s.sr n).bound ⟨h.fields.tag, n, .aborted, (s.sr n).consumer, h.late, false, false,
              false, 0, 0, h.fields.flags.noIntr⟩).unwatch n .head).setSr n { s.sr n with head := .empty }))) ∧
  (∀ (s : State) (n : Fin 16) (k : Nat), s.admin = .abortRecords n k →
    (s.works = true → (∀ rec ∈ (s.cr (s.sr n).bound).outbound, rec.srId ≠ n) →
      abortFinish s = completed s .ok k) ∧
    (s.works = false ∨ (∃ rec ∈ (s.cr (s.sr n).bound).outbound, rec.srId = n) → abortFinish s = s) ∧
    closeAbort s = abortFinish s) ∧
  (∀ s : State, (∀ n k, s.admin ≠ .abortRecords n k) →
    abortFinish s = s ∧ ((∀ n e, s.admin ≠ .abortMarkers n e) → closeAbort s = s)) ∧
  ∀ (s : State) (k : Fin 8) (rec : CplRecord),
    ((s.cr k).state ≠ .faulted → produce s k rec =
      s.setCr k { s.cr k with outbound := (s.cr k).outbound ++ [rec] }) ∧
    ((s.cr k).state = .faulted → produce s k rec = s.setCr k { s.cr k with
      reserved := (s.cr k).reserved - 1, discarded := min 0xFFFFFFFF ((s.cr k).discarded + 1) })

/-- ABORT_SR (R146 to R149) of a ring with nothing dispatched, in flight or in its head slot and no record
in the outbound list closes in its own event: the posted records are skipped and counted, the chain closes,
and the ring is PAUSED, or FAULTED if it was. -/
def Obligations.AbortOfQuietRingCloses : Prop :=
  ∀ (s : State) (t : Transaction) (r : Line) (n : Fin 16), s.adminReady t → plainRecord .abortSr r →
    byteAt r 12 = n.val → n ≠ 0 → (s.sr n).state ≠ .absent → (s.sr n).head = .empty →
    (s.sr n).fetchInFlight = false → (s.sr n).dispatched = false → (∀ c ∈ s.disp.contexts, c.ring ≠ n) →
    (∀ rec ∈ (s.cr (s.sr n).bound).outbound, rec.srId ≠ n) →
    runsAs (.abortSr r) s t r (fun u => completed (u.setSr n { u.sr n with
        state := if (u.sr n).state = .faulted then .faulted else .paused
        consumer := (u.sr n).producer, link := .unlinked, carry := .closed
        level := (u.sr n).pendingLevel.getD (u.sr n).level, pendingLevel := none }) .ok
      (apart (2 ^ (u.sr n).log2) (u.sr n).producer (u.sr n).consumer))

/-- SET_WINDOW and CLEAR_WINDOW (R91, R92, R152): a locked window is refused and unchanged. SET_TRIGGER (R120,
R153): the new edge select and filter length, credits, run count and overrun cleared, the filtered level kept.
SET_ENGINE (R154, R170): all five parameters change together, and disabling the fault vector drops the owed
messages; nothing else of Engine Control changes. A SET_TRIGGER value out of range ends BAD_FIELD. -/
def Obligations.ConfigurationCommands : Prop :=
  ∀ (s : State) (t : Transaction) (r : Line), s.adminReady t →
    (∀ i : Fin 8, byteAt r 12 = i.val → plainRecord .setWindow r → 1 ≤ fieldAt r 32 8 → fieldAt r 32 8 ≤ 2 ^ 32 →
      fieldAt r 16 8 + fieldAt r 32 8 ≤ 2 ^ 48 → fieldAt r 24 8 + fieldAt r 32 8 ≤ 2 ^ 48 →
      runsAs (.setWindow r) s t r (fun u => if (u.win i).locked = true then completed u .locked 0
        else completed (u.setWin i ⟨bitAt r 13 0, bitAt r 13 1, fieldAt r 16 8, fieldAt r 32 8, fieldAt r 24 8, 0⟩) .ok 0)) ∧
    (∀ i : Fin 8, byteAt r 12 = i.val → plainRecord .clearWindow r →
      runsAs (.clearWindow r) s t r (fun u => if (u.win i).locked = true then completed u .locked 0
        else completed (u.setWin i ⟨false, false, 0, 0, 0, 0⟩) .ok (u.win i).count)) ∧
    (plainRecord .setTrigger r →
      (∀ (i : Fin 8) (e : EdgeSelect), byteAt r 12 = i.val → byteAt r 13 = e.code → byteAt r 14 ≤ 15 →
        runsAs (.setTrigger r) s t r (fun u => completed
          (u.setTrig i ⟨e, byteAt r 14, (u.trig i).filtered, 0, 0, false⟩) .ok 0)) ∧
      (7 < byteAt r 12 ∨ 3 < byteAt r 13 ∨ 15 < byteAt r 14 →
        runsAs (.setTrigger r) s t r (fun u => completed u .badField 0))) ∧
    (plainRecord .setEngine r → fieldAt r 12 2 ∈ [64, 128, 256, 512] →
      (bitAt r 18 0 = true → fieldAt r 20 8 % 4 = 0 ∧ fieldAt r 20 8 < 2 ^ 48) →
      (bitAt r 18 1 = true → fieldAt r 32 8 % 4 = 0 ∧ fieldAt r 32 8 < 2 ^ 48) →
      runsAs (.setEngine r) s t r (fun u => completed { u with ctl := { u.ctl with
        segmentSize := fieldAt r 12 2
        responseTimeout := fieldAt r 14 2
        tickDivider := fieldAt r 16 2
        faultVector := ⟨bitAt r 18 0, BitVec.ofNat 64 (fieldAt r 20 8), BitVec.ofNat 32 (fieldAt r 28 4)⟩
        crVector := ⟨bitAt r 18 1, BitVec.ofNat 64 (fieldAt r 32 8), BitVec.ofNat 32 (fieldAt r 40 4)⟩
        owed := if bitAt r 18 0 then u.ctl.owed else 0 } } .ok 0))

/-- QUERY and IDENTIFY (R155 to R157, R175): the result record, formed in the execution event, is presented as
one 64-byte write at the buffer address, and the command stays in execution. The record holds the fields of
Table 11.11 or Table 11.12 at their positions and 0 in every other byte; of an ABSENT ring the header alone. The
answer of the write ends the command OK or BUFFER_FAULT; in HALTED it is recorded and nothing is produced (R139).
That a head settled SKIPPED reports its trigger byte as decoded is the model's choice (log entry 14), and that an
elapsed timer's start tick is reported its reading (log entry 12). -/
def Obligations.QueryAndIdentifyWriteRecords : Prop :=
  ([SrState.absent, .active, .paused, .aborting, .faulted].map SrState.code = [0, 1, 2, 3, 4] ∧
    [CrState.absent, .active, .faulted].map CrState.code = [0, 1, 2] ∧
    [ChainLink.unlinked, .linked, .broken].map ChainLink.code = [0, 1, 2] ∧
    [EdgeSelect.none, .rising, .falling, .both].map EdgeSelect.code = [0, 1, 2, 3]) ∧
  (∀ (s : State) (t : Transaction) (r : Line), s.adminReady t → fieldAt r 16 8 % 64 = 0 →
    fieldAt r 16 8 + 64 ≤ 2 ^ 48 →
    (plainRecord .query r → byteAt r 12 ≤ 4 →
      byteAt r 13 < (if byteAt r 12 = 0 then 16 else if byteAt r 12 = 4 then 1 else 8) →
      runsAs (.query r) s t r (fun u => { u with
        admin := .resultWrite (queryRecord u (byteAt r 12) (byteAt r 13)) (fieldAt r 16 8) none
        port := { u.port with admin := some ⟨.resultWrite, fieldAt r 16 8, 64,
          (queryRecord u (byteAt r 12) (byteAt r 13)).toList⟩ } })) ∧
    (plainRecord .identify r →
      runsAs (.identify r) s t r (fun u => { u with
        admin := .resultWrite identifyRecord (fieldAt r 16 8) none
        port := { u.port with admin := some ⟨.resultWrite, fieldAt r 16 8, 64,
          identifyRecord.toList⟩ } }))) ∧
  (∀ s : State, (∀ n : Fin 16, holdsFields (queryRecord s 0 n.val) (srFields s n)) ∧
    (∀ k : Fin 8, holdsFields (queryRecord s 1 k.val) (crFields s k) ∧
      holdsFields (queryRecord s 2 k.val) (windowFields s k) ∧
      holdsFields (queryRecord s 3 k.val) (triggerFields s k)) ∧
    (s.StackInv → holdsFields (queryRecord s 4 0) (engineFields s)) ∧
    (∀ n c, s.disp.active = some c → c.ring = n → s.dispatchedPlace n = (1, 0)) ∧
    (∀ n c i, (s.disp.contexts.map (fun x => x.ring)).Nodup → s.disp.stack.reverse[i]? = some c → c.ring = n →
      s.dispatchedPlace n = (2, i)) ∧
    (∀ n, (∀ c ∈ s.disp.contexts, c.ring ≠ n) → s.dispatchedPlace n = (0, 0))) ∧
  holdsFields identifyRecord capabilityFields ∧
  ∀ (s : State) (t : Transaction) (ok : Bool) (r : Line) (a : Nat) (w : Option Bool), s.awaits t →
    t.request.kind = .resultWrite → s.admin = .resultWrite r a w →
    (s.works = true → exec (.resultWriteAnswer t.id ok) s = .next
      (completed { s with port := { s.port with outstanding := without s t.id } }
        (if ok then .ok else .bufferFault) 0)) ∧
    (s.ctl.engine = .halted → exec (.resultWriteAnswer t.id ok) s = .next { s with
      port := { s.port with outstanding := without s t.id }, admin := .resultWrite r a (some ok) })

/-! ## What every step keeps -/

/-- The state after reset meets the invariants of R14, R55, R86, R90 and R114. -/
def Obligations.ResetMeetsInvariants : Prop :=
  State.reset.PortInv ∧ State.reset.TriggerInv ∧ State.reset.StackInv ∧ State.reset.WindowInv ∧
  State.reset.ReservationInv

/-- At most 16 transactions are outstanding and no identifier is held twice, after every step (R86, R88). -/
def Obligations.IdentifiersHeldOnce : Prop :=
  ∀ s t : State, s.PortInv → step s = .next t → t.PortInv

/-- Credits lie in 0..255 and no run count passes its filter length, after every step (R113, R114). -/
def Obligations.TriggerLinesStayBounded : Prop :=
  ∀ s t : State, s.TriggerInv → step s = .next t → t.TriggerInv

/-- The held contexts stay in order: the active one outranks the top of the stack, and each entry the one
below (R55). -/
def Obligations.StackStaysOrdered : Prop :=
  ∀ s t : State, s.StackInv → step s = .next t → t.StackInv

/-- Every window entry keeps the bounds of R90: no redirected read leaves the 48-bit space. -/
def Obligations.WindowsStayBounded : Prop :=
  ∀ s t : State, s.WindowInv → step s = .next t → t.WindowInv

/-- A locked window's configuration changes in no step but power-on reset (R98). -/
def Obligations.LockedWindowIsFixed : Prop :=
  ∀ (s t : State) (i : Fin 8), (s.win i).locked = true → s.pending.head? ≠ some .powerOnReset →
    step s = .next t → (s.win i).sameConfig (t.win i)

/-- The engine state changes only as Table 10.2 gives (R158). -/
def Obligations.EngineMovesAreListed : Prop :=
  ∀ s t : State, s.pending.head? ≠ some .powerOnReset → step s = .next t →
    engineMoves s.ctl.engine t.ctl.engine = true

/-- Every step keeps the completion space (R14): of each completion ring the reserved count is the number of
records in its outbound list and of commands still held for it, and with the occupied entries it does not exceed
the size minus one. The invariant also says what that count rests on: which fetches, contexts and administrative
commands are counted, and that an ABSENT ring and an engine that is OFF hold none. -/
def Obligations.ReservationsStayCovered : Prop :=
  ∀ s t : State, s.ReservationInv → step s = .next t → t.ReservationInv

/-- Only a tick advance moves the tick counter, and only the two clock commands the prescaler; nothing but
power-on reset sets them back (R101, R112). That no command changes the queue of waiting commands is the model's
choice: the queue is the model's own field and a reset leaves it (log entries 3 and 21). -/
def Obligations.OnlyClockMovesTick : Prop :=
  ∀ (s t : State) (c : Instr), c ≠ .powerOnReset → exec c s = .next t →
    (c ≠ .tickAdvance → t.time.tick = s.time.tick) ∧
    (c ≠ .tickAdvance → c ≠ .prescalerCount → t.time.prescaler = s.time.prescaler) ∧
    t.pending = s.pending
end

