-- ==== Sys2Proof/Laws/State.lean ====
section
/-! SUPPORT. One lemma per field per update of the state, each true by definition, and reading back an entry
that was replaced. -/

namespace Sys2Proof.Machine

-- One proof after the other: many at once use up the memory limit.
set_option Elab.async false

/-! ### State.setSr -/

@[simp] theorem State.setSr_ctl (s : State) (n : Fin 16) (r : SubRing) : (s.setSr n r).ctl = s.ctl := rfl
@[simp] theorem State.setSr_fetchLast (s : State) (n : Fin 16) (r : SubRing) : (s.setSr n r).fetchLast = s.fetchLast := rfl
@[simp] theorem State.setSr_crs (s : State) (n : Fin 16) (r : SubRing) : (s.setSr n r).crs = s.crs := rfl
@[simp] theorem State.setSr_cplLast (s : State) (n : Fin 16) (r : SubRing) : (s.setSr n r).cplLast = s.cplLast := rfl
@[simp] theorem State.setSr_leftWrites (s : State) (n : Fin 16) (r : SubRing) : (s.setSr n r).leftWrites = s.leftWrites := rfl
@[simp] theorem State.setSr_disp (s : State) (n : Fin 16) (r : SubRing) : (s.setSr n r).disp = s.disp := rfl
@[simp] theorem State.setSr_lane (s : State) (n : Fin 16) (r : SubRing) : (s.setSr n r).lane = s.lane := rfl
@[simp] theorem State.setSr_wins (s : State) (n : Fin 16) (r : SubRing) : (s.setSr n r).wins = s.wins := rfl
@[simp] theorem State.setSr_trigs (s : State) (n : Fin 16) (r : SubRing) : (s.setSr n r).trigs = s.trigs := rfl
@[simp] theorem State.setSr_time (s : State) (n : Fin 16) (r : SubRing) : (s.setSr n r).time = s.time := rfl
@[simp] theorem State.setSr_admin (s : State) (n : Fin 16) (r : SubRing) : (s.setSr n r).admin = s.admin := rfl
@[simp] theorem State.setSr_port (s : State) (n : Fin 16) (r : SubRing) : (s.setSr n r).port = s.port := rfl
@[simp] theorem State.setSr_pending (s : State) (n : Fin 16) (r : SubRing) : (s.setSr n r).pending = s.pending := rfl

/-! ### State.setCr -/

@[simp] theorem State.setCr_ctl (s : State) (n : Fin 8) (c : CplRing) : (s.setCr n c).ctl = s.ctl := rfl
@[simp] theorem State.setCr_srs (s : State) (n : Fin 8) (c : CplRing) : (s.setCr n c).srs = s.srs := rfl
@[simp] theorem State.setCr_fetchLast (s : State) (n : Fin 8) (c : CplRing) : (s.setCr n c).fetchLast = s.fetchLast := rfl
@[simp] theorem State.setCr_cplLast (s : State) (n : Fin 8) (c : CplRing) : (s.setCr n c).cplLast = s.cplLast := rfl
@[simp] theorem State.setCr_leftWrites (s : State) (n : Fin 8) (c : CplRing) : (s.setCr n c).leftWrites = s.leftWrites := rfl
@[simp] theorem State.setCr_disp (s : State) (n : Fin 8) (c : CplRing) : (s.setCr n c).disp = s.disp := rfl
@[simp] theorem State.setCr_lane (s : State) (n : Fin 8) (c : CplRing) : (s.setCr n c).lane = s.lane := rfl
@[simp] theorem State.setCr_wins (s : State) (n : Fin 8) (c : CplRing) : (s.setCr n c).wins = s.wins := rfl
@[simp] theorem State.setCr_trigs (s : State) (n : Fin 8) (c : CplRing) : (s.setCr n c).trigs = s.trigs := rfl
@[simp] theorem State.setCr_time (s : State) (n : Fin 8) (c : CplRing) : (s.setCr n c).time = s.time := rfl
@[simp] theorem State.setCr_admin (s : State) (n : Fin 8) (c : CplRing) : (s.setCr n c).admin = s.admin := rfl
@[simp] theorem State.setCr_port (s : State) (n : Fin 8) (c : CplRing) : (s.setCr n c).port = s.port := rfl
@[simp] theorem State.setCr_pending (s : State) (n : Fin 8) (c : CplRing) : (s.setCr n c).pending = s.pending := rfl

/-! ### State.setWin -/

@[simp] theorem State.setWin_ctl (s : State) (n : Fin 8) (w : Window) : (s.setWin n w).ctl = s.ctl := rfl
@[simp] theorem State.setWin_srs (s : State) (n : Fin 8) (w : Window) : (s.setWin n w).srs = s.srs := rfl
@[simp] theorem State.setWin_fetchLast (s : State) (n : Fin 8) (w : Window) : (s.setWin n w).fetchLast = s.fetchLast := rfl
@[simp] theorem State.setWin_crs (s : State) (n : Fin 8) (w : Window) : (s.setWin n w).crs = s.crs := rfl
@[simp] theorem State.setWin_cplLast (s : State) (n : Fin 8) (w : Window) : (s.setWin n w).cplLast = s.cplLast := rfl
@[simp] theorem State.setWin_leftWrites (s : State) (n : Fin 8) (w : Window) : (s.setWin n w).leftWrites = s.leftWrites := rfl
@[simp] theorem State.setWin_disp (s : State) (n : Fin 8) (w : Window) : (s.setWin n w).disp = s.disp := rfl
@[simp] theorem State.setWin_lane (s : State) (n : Fin 8) (w : Window) : (s.setWin n w).lane = s.lane := rfl
@[simp] theorem State.setWin_trigs (s : State) (n : Fin 8) (w : Window) : (s.setWin n w).trigs = s.trigs := rfl
@[simp] theorem State.setWin_time (s : State) (n : Fin 8) (w : Window) : (s.setWin n w).time = s.time := rfl
@[simp] theorem State.setWin_admin (s : State) (n : Fin 8) (w : Window) : (s.setWin n w).admin = s.admin := rfl
@[simp] theorem State.setWin_port (s : State) (n : Fin 8) (w : Window) : (s.setWin n w).port = s.port := rfl
@[simp] theorem State.setWin_pending (s : State) (n : Fin 8) (w : Window) : (s.setWin n w).pending = s.pending := rfl

/-! ### State.setTrig -/

@[simp] theorem State.setTrig_ctl (s : State) (n : Fin 8) (t : TriggerLine) : (s.setTrig n t).ctl = s.ctl := rfl
@[simp] theorem State.setTrig_srs (s : State) (n : Fin 8) (t : TriggerLine) : (s.setTrig n t).srs = s.srs := rfl
@[simp] theorem State.setTrig_fetchLast (s : State) (n : Fin 8) (t : TriggerLine) : (s.setTrig n t).fetchLast = s.fetchLast := rfl
@[simp] theorem State.setTrig_crs (s : State) (n : Fin 8) (t : TriggerLine) : (s.setTrig n t).crs = s.crs := rfl
@[simp] theorem State.setTrig_cplLast (s : State) (n : Fin 8) (t : TriggerLine) : (s.setTrig n t).cplLast = s.cplLast := rfl
@[simp] theorem State.setTrig_leftWrites (s : State) (n : Fin 8) (t : TriggerLine) : (s.setTrig n t).leftWrites = s.leftWrites := rfl
@[simp] theorem State.setTrig_disp (s : State) (n : Fin 8) (t : TriggerLine) : (s.setTrig n t).disp = s.disp := rfl
@[simp] theorem State.setTrig_lane (s : State) (n : Fin 8) (t : TriggerLine) : (s.setTrig n t).lane = s.lane := rfl
@[simp] theorem State.setTrig_wins (s : State) (n : Fin 8) (t : TriggerLine) : (s.setTrig n t).wins = s.wins := rfl
@[simp] theorem State.setTrig_time (s : State) (n : Fin 8) (t : TriggerLine) : (s.setTrig n t).time = s.time := rfl
@[simp] theorem State.setTrig_admin (s : State) (n : Fin 8) (t : TriggerLine) : (s.setTrig n t).admin = s.admin := rfl
@[simp] theorem State.setTrig_port (s : State) (n : Fin 8) (t : TriggerLine) : (s.setTrig n t).port = s.port := rfl
@[simp] theorem State.setTrig_pending (s : State) (n : Fin 8) (t : TriggerLine) : (s.setTrig n t).pending = s.pending := rfl

/-! ### State.setLeftWrite -/

@[simp] theorem State.setLeftWrite_ctl (s : State) (n : Fin 8) (b : Bool) : (s.setLeftWrite n b).ctl = s.ctl := rfl
@[simp] theorem State.setLeftWrite_srs (s : State) (n : Fin 8) (b : Bool) : (s.setLeftWrite n b).srs = s.srs := rfl
@[simp] theorem State.setLeftWrite_fetchLast (s : State) (n : Fin 8) (b : Bool) : (s.setLeftWrite n b).fetchLast = s.fetchLast := rfl
@[simp] theorem State.setLeftWrite_crs (s : State) (n : Fin 8) (b : Bool) : (s.setLeftWrite n b).crs = s.crs := rfl
@[simp] theorem State.setLeftWrite_cplLast (s : State) (n : Fin 8) (b : Bool) : (s.setLeftWrite n b).cplLast = s.cplLast := rfl
@[simp] theorem State.setLeftWrite_disp (s : State) (n : Fin 8) (b : Bool) : (s.setLeftWrite n b).disp = s.disp := rfl
@[simp] theorem State.setLeftWrite_lane (s : State) (n : Fin 8) (b : Bool) : (s.setLeftWrite n b).lane = s.lane := rfl
@[simp] theorem State.setLeftWrite_wins (s : State) (n : Fin 8) (b : Bool) : (s.setLeftWrite n b).wins = s.wins := rfl
@[simp] theorem State.setLeftWrite_trigs (s : State) (n : Fin 8) (b : Bool) : (s.setLeftWrite n b).trigs = s.trigs := rfl
@[simp] theorem State.setLeftWrite_time (s : State) (n : Fin 8) (b : Bool) : (s.setLeftWrite n b).time = s.time := rfl
@[simp] theorem State.setLeftWrite_admin (s : State) (n : Fin 8) (b : Bool) : (s.setLeftWrite n b).admin = s.admin := rfl
@[simp] theorem State.setLeftWrite_port (s : State) (n : Fin 8) (b : Bool) : (s.setLeftWrite n b).port = s.port := rfl
@[simp] theorem State.setLeftWrite_pending (s : State) (n : Fin 8) (b : Bool) : (s.setLeftWrite n b).pending = s.pending := rfl

/-! ### State.setEngine -/

@[simp] theorem State.setEngine_srs (s : State) (e : EngineState) : (s.setEngine e).srs = s.srs := rfl
@[simp] theorem State.setEngine_fetchLast (s : State) (e : EngineState) : (s.setEngine e).fetchLast = s.fetchLast := rfl
@[simp] theorem State.setEngine_crs (s : State) (e : EngineState) : (s.setEngine e).crs = s.crs := rfl
@[simp] theorem State.setEngine_cplLast (s : State) (e : EngineState) : (s.setEngine e).cplLast = s.cplLast := rfl
@[simp] theorem State.setEngine_leftWrites (s : State) (e : EngineState) : (s.setEngine e).leftWrites = s.leftWrites := rfl
@[simp] theorem State.setEngine_disp (s : State) (e : EngineState) : (s.setEngine e).disp = s.disp := rfl
@[simp] theorem State.setEngine_lane (s : State) (e : EngineState) : (s.setEngine e).lane = s.lane := rfl
@[simp] theorem State.setEngine_wins (s : State) (e : EngineState) : (s.setEngine e).wins = s.wins := rfl
@[simp] theorem State.setEngine_trigs (s : State) (e : EngineState) : (s.setEngine e).trigs = s.trigs := rfl
@[simp] theorem State.setEngine_time (s : State) (e : EngineState) : (s.setEngine e).time = s.time := rfl
@[simp] theorem State.setEngine_admin (s : State) (e : EngineState) : (s.setEngine e).admin = s.admin := rfl
@[simp] theorem State.setEngine_port (s : State) (e : EngineState) : (s.setEngine e).port = s.port := rfl
@[simp] theorem State.setEngine_pending (s : State) (e : EngineState) : (s.setEngine e).pending = s.pending := rfl

/-! ### State.unwatch -/

@[simp] theorem State.unwatch_ctl (s : State) (n : Fin 16) (p : Place) : (s.unwatch n p).ctl = s.ctl := rfl
@[simp] theorem State.unwatch_srs (s : State) (n : Fin 16) (p : Place) : (s.unwatch n p).srs = s.srs := rfl
@[simp] theorem State.unwatch_fetchLast (s : State) (n : Fin 16) (p : Place) : (s.unwatch n p).fetchLast = s.fetchLast := rfl
@[simp] theorem State.unwatch_crs (s : State) (n : Fin 16) (p : Place) : (s.unwatch n p).crs = s.crs := rfl
@[simp] theorem State.unwatch_cplLast (s : State) (n : Fin 16) (p : Place) : (s.unwatch n p).cplLast = s.cplLast := rfl
@[simp] theorem State.unwatch_leftWrites (s : State) (n : Fin 16) (p : Place) : (s.unwatch n p).leftWrites = s.leftWrites := rfl
@[simp] theorem State.unwatch_disp (s : State) (n : Fin 16) (p : Place) : (s.unwatch n p).disp = s.disp := rfl
@[simp] theorem State.unwatch_lane (s : State) (n : Fin 16) (p : Place) : (s.unwatch n p).lane = s.lane := rfl
@[simp] theorem State.unwatch_wins (s : State) (n : Fin 16) (p : Place) : (s.unwatch n p).wins = s.wins := rfl
@[simp] theorem State.unwatch_trigs (s : State) (n : Fin 16) (p : Place) : (s.unwatch n p).trigs = s.trigs := rfl
@[simp] theorem State.unwatch_admin (s : State) (n : Fin 16) (p : Place) : (s.unwatch n p).admin = s.admin := rfl
@[simp] theorem State.unwatch_port (s : State) (n : Fin 16) (p : Place) : (s.unwatch n p).port = s.port := rfl
@[simp] theorem State.unwatch_pending (s : State) (n : Fin 16) (p : Place) : (s.unwatch n p).pending = s.pending := rfl

/-! ### State.moveWatch -/

@[simp] theorem State.moveWatch_ctl (s : State) (n : Fin 16) (p q : Place) : (s.moveWatch n p q).ctl = s.ctl := rfl
@[simp] theorem State.moveWatch_srs (s : State) (n : Fin 16) (p q : Place) : (s.moveWatch n p q).srs = s.srs := rfl
@[simp] theorem State.moveWatch_fetchLast (s : State) (n : Fin 16) (p q : Place) : (s.moveWatch n p q).fetchLast = s.fetchLast := rfl
@[simp] theorem State.moveWatch_crs (s : State) (n : Fin 16) (p q : Place) : (s.moveWatch n p q).crs = s.crs := rfl
@[simp] theorem State.moveWatch_cplLast (s : State) (n : Fin 16) (p q : Place) : (s.moveWatch n p q).cplLast = s.cplLast := rfl
@[simp] theorem State.moveWatch_leftWrites (s : State) (n : Fin 16) (p q : Place) : (s.moveWatch n p q).leftWrites = s.leftWrites := rfl
@[simp] theorem State.moveWatch_disp (s : State) (n : Fin 16) (p q : Place) : (s.moveWatch n p q).disp = s.disp := rfl
@[simp] theorem State.moveWatch_lane (s : State) (n : Fin 16) (p q : Place) : (s.moveWatch n p q).lane = s.lane := rfl
@[simp] theorem State.moveWatch_wins (s : State) (n : Fin 16) (p q : Place) : (s.moveWatch n p q).wins = s.wins := rfl
@[simp] theorem State.moveWatch_trigs (s : State) (n : Fin 16) (p q : Place) : (s.moveWatch n p q).trigs = s.trigs := rfl
@[simp] theorem State.moveWatch_admin (s : State) (n : Fin 16) (p q : Place) : (s.moveWatch n p q).admin = s.admin := rfl
@[simp] theorem State.moveWatch_port (s : State) (n : Fin 16) (p q : Place) : (s.moveWatch n p q).port = s.port := rfl
@[simp] theorem State.moveWatch_pending (s : State) (n : Fin 16) (p q : Place) : (s.moveWatch n p q).pending = s.pending := rfl

/-! ### State.retire -/

@[simp] theorem State.retire_ctl (s : State) (id : Fin 32) : (s.retire id).ctl = s.ctl := rfl
@[simp] theorem State.retire_srs (s : State) (id : Fin 32) : (s.retire id).srs = s.srs := rfl
@[simp] theorem State.retire_fetchLast (s : State) (id : Fin 32) : (s.retire id).fetchLast = s.fetchLast := rfl
@[simp] theorem State.retire_crs (s : State) (id : Fin 32) : (s.retire id).crs = s.crs := rfl
@[simp] theorem State.retire_cplLast (s : State) (id : Fin 32) : (s.retire id).cplLast = s.cplLast := rfl
@[simp] theorem State.retire_leftWrites (s : State) (id : Fin 32) : (s.retire id).leftWrites = s.leftWrites := rfl
@[simp] theorem State.retire_disp (s : State) (id : Fin 32) : (s.retire id).disp = s.disp := rfl
@[simp] theorem State.retire_lane (s : State) (id : Fin 32) : (s.retire id).lane = s.lane := rfl
@[simp] theorem State.retire_wins (s : State) (id : Fin 32) : (s.retire id).wins = s.wins := rfl
@[simp] theorem State.retire_trigs (s : State) (id : Fin 32) : (s.retire id).trigs = s.trigs := rfl
@[simp] theorem State.retire_time (s : State) (id : Fin 32) : (s.retire id).time = s.time := rfl
@[simp] theorem State.retire_admin (s : State) (id : Fin 32) : (s.retire id).admin = s.admin := rfl
@[simp] theorem State.retire_pending (s : State) (id : Fin 32) : (s.retire id).pending = s.pending := rfl

/-! ### State.freeAbandoned -/

@[simp] theorem State.freeAbandoned_ctl (s : State) (id : Fin 32) : (s.freeAbandoned id).ctl = s.ctl := rfl
@[simp] theorem State.freeAbandoned_srs (s : State) (id : Fin 32) : (s.freeAbandoned id).srs = s.srs := rfl
@[simp] theorem State.freeAbandoned_fetchLast (s : State) (id : Fin 32) : (s.freeAbandoned id).fetchLast = s.fetchLast := rfl
@[simp] theorem State.freeAbandoned_crs (s : State) (id : Fin 32) : (s.freeAbandoned id).crs = s.crs := rfl
@[simp] theorem State.freeAbandoned_cplLast (s : State) (id : Fin 32) : (s.freeAbandoned id).cplLast = s.cplLast := rfl
@[simp] theorem State.freeAbandoned_leftWrites (s : State) (id : Fin 32) : (s.freeAbandoned id).leftWrites = s.leftWrites := rfl
@[simp] theorem State.freeAbandoned_disp (s : State) (id : Fin 32) : (s.freeAbandoned id).disp = s.disp := rfl
@[simp] theorem State.freeAbandoned_lane (s : State) (id : Fin 32) : (s.freeAbandoned id).lane = s.lane := rfl
@[simp] theorem State.freeAbandoned_wins (s : State) (id : Fin 32) : (s.freeAbandoned id).wins = s.wins := rfl
@[simp] theorem State.freeAbandoned_trigs (s : State) (id : Fin 32) : (s.freeAbandoned id).trigs = s.trigs := rfl
@[simp] theorem State.freeAbandoned_time (s : State) (id : Fin 32) : (s.freeAbandoned id).time = s.time := rfl
@[simp] theorem State.freeAbandoned_admin (s : State) (id : Fin 32) : (s.freeAbandoned id).admin = s.admin := rfl
@[simp] theorem State.freeAbandoned_pending (s : State) (id : Fin 32) : (s.freeAbandoned id).pending = s.pending := rfl

/-! ### The changed field -/

@[simp] theorem State.setEngine_engine (s : State) (e : EngineState) : (s.setEngine e).ctl.engine = e := rfl
@[simp] theorem State.unwatch_tick (s : State) (n : Fin 16) (p : Place) :
    (s.unwatch n p).time.tick = s.time.tick := rfl
@[simp] theorem State.unwatch_prescaler (s : State) (n : Fin 16) (p : Place) :
    (s.unwatch n p).time.prescaler = s.time.prescaler := rfl
@[simp] theorem State.moveWatch_tick (s : State) (n : Fin 16) (p q : Place) :
    (s.moveWatch n p q).time.tick = s.time.tick := rfl
@[simp] theorem State.moveWatch_prescaler (s : State) (n : Fin 16) (p q : Place) :
    (s.moveWatch n p q).time.prescaler = s.time.prescaler := rfl

/-- Reading a vector after one entry is replaced. -/
theorem vector_get_set {α : Type} {k : Nat} (v : Vector α k) (i j : Fin k) (x : α) :
    (v.set i.val x i.isLt).get j = if j = i then x else v.get j := by
  have e (w : Vector α k) : w.get j = w[j.val] := rfl
  rw [e, e, Vector.getElem_set]
  by_cases h : j = i
  · simp [h]
  · have : i.val ≠ j.val := fun e => h (Fin.ext e.symm)
    simp [h, this]

theorem State.sr_setSr (s : State) (n m : Fin 16) (r : SubRing) :
    (s.setSr n r).sr m = if m = n then r else s.sr m := vector_get_set _ n m r

@[simp] theorem State.sr_setSr_self (s : State) (n : Fin 16) (r : SubRing) : (s.setSr n r).sr n = r := by
  simp [State.sr_setSr]

theorem State.sr_setSr_ne (s : State) (n m : Fin 16) (r : SubRing) (h : m ≠ n) :
    (s.setSr n r).sr m = s.sr m := by
  simp [State.sr_setSr, h]

theorem State.cr_setCr (s : State) (n m : Fin 8) (c : CplRing) :
    (s.setCr n c).cr m = if m = n then c else s.cr m := vector_get_set _ n m c

@[simp] theorem State.cr_setCr_self (s : State) (n : Fin 8) (c : CplRing) : (s.setCr n c).cr n = c := by
  simp [State.cr_setCr]

theorem State.cr_setCr_ne (s : State) (n m : Fin 8) (c : CplRing) (h : m ≠ n) :
    (s.setCr n c).cr m = s.cr m := by
  simp [State.cr_setCr, h]

theorem State.win_setWin (s : State) (n m : Fin 8) (w : Window) :
    (s.setWin n w).win m = if m = n then w else s.win m := vector_get_set _ n m w

@[simp] theorem State.win_setWin_self (s : State) (n : Fin 8) (w : Window) : (s.setWin n w).win n = w := by
  simp [State.win_setWin]

theorem State.win_setWin_ne (s : State) (n m : Fin 8) (w : Window) (h : m ≠ n) :
    (s.setWin n w).win m = s.win m := by
  simp [State.win_setWin, h]

theorem State.trig_setTrig (s : State) (n m : Fin 8) (t : TriggerLine) :
    (s.setTrig n t).trig m = if m = n then t else s.trig m := vector_get_set _ n m t

@[simp] theorem State.trig_setTrig_self (s : State) (n : Fin 8) (t : TriggerLine) : (s.setTrig n t).trig n = t := by
  simp [State.trig_setTrig]

theorem State.trig_setTrig_ne (s : State) (n m : Fin 8) (t : TriggerLine) (h : m ≠ n) :
    (s.setTrig n t).trig m = s.trig m := by
  simp [State.trig_setTrig, h]

theorem State.leftWrite_setLeftWrite (s : State) (n m : Fin 8) (b : Bool) :
    (s.setLeftWrite n b).leftWrite m = if m = n then b else s.leftWrite m := vector_get_set _ n m b

@[simp] theorem State.leftWrite_setLeftWrite_self (s : State) (n : Fin 8) (b : Bool) : (s.setLeftWrite n b).leftWrite n = b := by
  simp [State.leftWrite_setLeftWrite]

theorem State.leftWrite_setLeftWrite_ne (s : State) (n m : Fin 8) (b : Bool) (h : m ≠ n) :
    (s.setLeftWrite n b).leftWrite m = s.leftWrite m := by
  simp [State.leftWrite_setLeftWrite, h]

@[simp] theorem State.sr_setCr (s : State) (n : Fin 8) (c : CplRing) (m : Fin 16) :
    (s.setCr n c).sr m = s.sr m := rfl

@[simp] theorem State.cr_setSr (s : State) (n : Fin 16) (r : SubRing) (m : Fin 8) :
    (s.setSr n r).cr m = s.cr m := rfl

end Sys2Proof.Machine
end

