-- ==== Sys2Proof/Laws/Admin.lean ====
section
/-! SUPPORT. What an administrative row does, once for all sixteen commands: the event of the row on a
ready engine, the completion it produces, and the operands it reads. -/

namespace Sys2Proof.Machine

-- One proof after the other: many at once use up the memory limit.
set_option Elab.async false

/-- On a ready engine an administrative row runs its effect on the state in which the record was taken. -/
theorem adminRow_ready (s : State) (t : Transaction) (op : Option AdminOp) (r : Line)
    (f : State → State) (h : s.adminReady t) (ho : recordAdminOp r = op) :
    adminRow op r f s = .next (decisionA (f (s.adminTaken t r))) := by
  obtain ⟨h1, h2, h3⟩ := h
  have hr : s.ctl.engine ≠ .resetting := by
    intro e
    simp [State.works, e] at h2
  have hw : (placeAdmin (s.retire t.id) r).works = true := by
    simpa [State.works, placeAdmin, State.retire] using h2
  have ha : (placeAdmin (s.retire t.id) r).admin = .idle := by
    simpa [placeAdmin, State.retire] using h3
  simp only [adminRow, ho, if_true, adminArrives, h1, hr, if_false, adminFetched, hw, ha, Bool.true_and,
    decide_true]
  rfl

/-- An administrative row whose record names another opcode runs the command the record names. -/
theorem adminRow_named (s : State) (op : Option AdminOp) (r : Line) (f : State → State)
    (ho : recordAdminOp r ≠ op) :
    adminRow op r f s = .next (adminArrives r (runAdmin (recordAdminOp r) r) s) := by
  simp [adminRow, ho]

/-- Without an outstanding SR0 fetch an administrative row changes nothing. -/
theorem adminRow_idle (s : State) (op : Option AdminOp) (r : Line) (f : State → State)
    (h : s.port.adminFetch = none) : adminRow op r f s = .next s := by
  simp [adminRow, adminArrives, h]

/-- Taking the SR0 record changes no other submission ring. -/
theorem State.adminTaken_sr (s : State) (t : Transaction) (r : Line) (n : Fin 16) (h : n ≠ 0) :
    (s.adminTaken t r).sr n = s.sr n := by
  simp only [State.adminTaken, State.sr]
  rw [show (s.srs.set (0 : Fin 16) _ _).get n = _ from vector_get_set _ 0 n _]
  simp [h]

/-- Taking the SR0 record changes no completion ring. -/
@[simp] theorem State.adminTaken_cr (s : State) (t : Transaction) (r : Line) (n : Fin 8) :
    (s.adminTaken t r).cr n = s.cr n := rfl

/-- Taking the SR0 record changes no dispatcher state. -/
@[simp] theorem State.adminTaken_disp (s : State) (t : Transaction) (r : Line) :
    (s.adminTaken t r).disp = s.disp := rfl

/-- Taking the SR0 record changes no window. -/
@[simp] theorem State.adminTaken_win (s : State) (t : Transaction) (r : Line) (i : Fin 8) :
    (s.adminTaken t r).win i = s.win i := rfl

/-- Taking the SR0 record changes no trigger line. -/
@[simp] theorem State.adminTaken_trig (s : State) (t : Transaction) (r : Line) (i : Fin 8) :
    (s.adminTaken t r).trig i = s.trig i := rfl

/-- Taking the SR0 record changes no engine parameter. -/
@[simp] theorem State.adminTaken_ctl (s : State) (t : Transaction) (r : Line) :
    (s.adminTaken t r).ctl = s.ctl := rfl

/-- An index that fits is read as itself. -/
theorem finOf_val {k : Nat} (n : Fin k) (h : 0 < k) : finOf k n.val h = n := by
  simp [finOf, Nat.mod_eq_of_lt n.isLt]

/-- The ring of a record's byte 12, when it is one. -/
theorem srId_eq (r : Line) (n : Fin 16) (h : byteAt r 12 = n.val) : srId r = n := by
  simp [srId, h, finOf_val]

/-- The ring, window or line of a record's byte, when it is one. -/
theorem crId_eq (r : Line) (off : Nat) (n : Fin 8) (h : byteAt r off = n.val) : crId r off = n := by
  simp [crId, h, finOf_val]

/-- The checks of R138 pass: the body runs. -/
theorem adminChecked_pass (op : AdminOp) (r : Line) (s b : State) (h : unusedClear op r = true) :
    adminChecked op r true s b = b := by simp [adminChecked, h]

/-- A set unused byte or bit ends the command BAD_FIELD (R174). -/
theorem adminChecked_unused (op : AdminOp) (r : Line) (g : Bool) (s b : State)
    (h : unusedClear op r = false) : adminChecked op r g s b = finishAdmin s .badField 0 := by
  simp [adminChecked, h]

/-- An operand out of range ends the command BAD_FIELD (R138). -/
theorem adminChecked_range (op : AdminOp) (r : Line) (s b : State) :
    adminChecked op r false s b = finishAdmin s .badField 0 := by simp [adminChecked]

/-- Finishing an administrative command leaves the Admin Unit idle. -/
theorem finishAdmin_admin (s : State) (st : Status) (v : Nat) : (finishAdmin s st v).admin = .idle := by
  unfold finishAdmin produce
  rfl

/-- Putting rings in a state changes the state of those rings and nothing else (R145). -/
theorem setStates_sr (st : SrState) (l : List (Fin 16)) (s : State) :
    (∀ n, (setStates st s l).sr n = if n ∈ l then { s.sr n with state := st } else s.sr n) ∧
      setStates st s l = { s with srs := (setStates st s l).srs } := by
  induction l generalizing s with
  | nil => simp [setStates]
  | cons x xs ih =>
    obtain ⟨h1, h2⟩ := ih (s.setSr x { s.sr x with state := st })
    refine ⟨fun n => ?_, ?_⟩
    · show (setStates st (s.setSr x { s.sr x with state := st }) xs).sr n = _
      rw [h1 n, State.sr_setSr]
      by_cases e : n = x
      · subst e
        simp
      · simp [e]
    · show setStates st (s.setSr x { s.sr x with state := st }) xs = _
      rw [h2]
      rfl

end Sys2Proof.Machine
end

