-- ==== Sys2Proof/Laws/Frame.lean ====
section
/-! SUPPORT. What every shared operation leaves as it was: one lemma per operation says that it `Keeps` the
window configurations, the trigger lines but for spent credits, the outstanding transactions and their
identifiers, the tick, the settings of Engine Control, the order of the stack, and the waiting commands,
and that the engine state changes at most to PAUSED at a pause point or to HALTED. -/

namespace Sys2Proof.Machine

-- One proof after the other: many at once use up the memory limit.
set_option Elab.async false

/-! ## The relation -/

/-- A line after dispatches that may have spent credits (R116). -/
def TriggerLine.spends (a b : TriggerLine) : Prop :=
  b.edge = a.edge ∧ b.filterLength = a.filterLength ∧ b.filtered = a.filtered ∧
  b.runCount = a.runCount ∧ b.overrun = a.overrun ∧ b.credits ≤ a.credits

/-- Engine Control without the engine state, the capture and the fault messages. -/
def Control.settings (c : Control) : Control :=
  { c with engine := .off, capture := .cleared, owed := 0, faultWrite := false }

/-- The engine state stays, reaches its pause point (R66), or enters HALTED (R161). -/
def EngineState.follows (a b : EngineState) : Prop :=
  b = a ∨ (a = .pausing ∧ b = .paused) ∨ ((a = .running ∨ a = .pausing ∨ a = .paused) ∧ b = .halted)

/-- What the shared operations keep. -/
structure Keeps (s t : State) : Prop where
  wins : ∀ i, (s.win i).sameConfig (t.win i)
  trigs : ∀ i, (s.trig i).spends (t.trig i)
  outstanding : t.port.outstanding = s.port.outstanding
  abandoned : t.port.abandoned = s.port.abandoned
  tick : t.time.tick = s.time.tick
  prescaler : t.time.prescaler = s.time.prescaler
  pending : t.pending = s.pending
  settings : t.ctl.settings = s.ctl.settings
  engine : s.ctl.engine.follows t.ctl.engine
  stack : s.StackInv → t.StackInv

theorem Window.sameConfig_refl (w : Window) : w.sameConfig w := ⟨rfl, rfl, rfl, rfl, rfl⟩

theorem Window.sameConfig_trans {a b c : Window} (h : a.sameConfig b) (k : b.sameConfig c) :
    a.sameConfig c := by
  obtain ⟨h1, h2, h3, h4, h5⟩ := h
  obtain ⟨k1, k2, k3, k4, k5⟩ := k
  exact ⟨k1.trans h1, k2.trans h2, k3.trans h3, k4.trans h4, k5.trans h5⟩

theorem TriggerLine.spends_refl (t : TriggerLine) : t.spends t := ⟨rfl, rfl, rfl, rfl, rfl, le_refl _⟩

theorem TriggerLine.spends_trans {a b c : TriggerLine} (h : a.spends b) (k : b.spends c) : a.spends c := by
  obtain ⟨h1, h2, h3, h4, h5, h6⟩ := h
  obtain ⟨k1, k2, k3, k4, k5, k6⟩ := k
  exact ⟨k1.trans h1, k2.trans h2, k3.trans h3, k4.trans h4, k5.trans h5, k6.trans h6⟩

theorem EngineState.follows_trans {a b c : EngineState} (h : a.follows b) (k : b.follows c) :
    a.follows c := by
  revert h k
  cases a <;> cases b <;> cases c <;> simp [EngineState.follows]

/-- An operation that leaves these parts alone keeps everything. -/
theorem Keeps.same {s t : State} (hw : t.wins = s.wins := by rfl) (ht : t.trigs = s.trigs := by rfl)
    (ho : t.port.outstanding = s.port.outstanding := by rfl)
    (ha : t.port.abandoned = s.port.abandoned := by rfl)
    (hk : t.time.tick = s.time.tick := by rfl) (hr : t.time.prescaler = s.time.prescaler := by rfl)
    (hp : t.pending = s.pending := by rfl) (hc : t.ctl = s.ctl := by rfl)
    (hd : t.disp = s.disp := by rfl) : Keeps s t where
  wins i := by simp only [State.win, hw]; exact Window.sameConfig_refl _
  trigs i := by simp only [State.trig, ht]; exact TriggerLine.spends_refl _
  outstanding := ho
  abandoned := ha
  tick := hk
  prescaler := hr
  pending := hp
  settings := by rw [hc]
  engine := by rw [hc]; exact .inl rfl
  stack h := by simpa only [State.StackInv, hd] using h

theorem Keeps.refl (s : State) : Keeps s s := Keeps.same

theorem Keeps.trans {a b c : State} (h : Keeps a b) (k : Keeps b c) : Keeps a c where
  wins i := Window.sameConfig_trans (h.wins i) (k.wins i)
  trigs i := TriggerLine.spends_trans (h.trigs i) (k.trigs i)
  outstanding := k.outstanding.trans h.outstanding
  abandoned := k.abandoned.trans h.abandoned
  tick := k.tick.trans h.tick
  prescaler := k.prescaler.trans h.prescaler
  pending := k.pending.trans h.pending
  settings := k.settings.trans h.settings
  engine := EngineState.follows_trans h.engine k.engine
  stack := k.stack ∘ h.stack

/-- An operation that only moves contexts keeps everything when it keeps the order of the stack. -/
theorem Keeps.disp {s t : State} (hd : s.StackInv → t.StackInv) (hw : t.wins = s.wins := by rfl)
    (ht : t.trigs = s.trigs := by rfl) (ho : t.port.outstanding = s.port.outstanding := by rfl)
    (ha : t.port.abandoned = s.port.abandoned := by rfl)
    (hk : t.time.tick = s.time.tick := by rfl) (hr : t.time.prescaler = s.time.prescaler := by rfl)
    (hp : t.pending = s.pending := by rfl) (hc : t.ctl = s.ctl := by rfl) : Keeps s t where
  wins i := by simp only [State.win, hw]; exact Window.sameConfig_refl _
  trigs i := by simp only [State.trig, ht]; exact TriggerLine.spends_refl _
  outstanding := ho
  abandoned := ha
  tick := hk
  prescaler := hr
  pending := hp
  settings := by rw [hc]
  engine := by rw [hc]; exact .inl rfl
  stack := hd

/-- A change of the engine state that follows keeps everything. -/
theorem keeps_setEngine {s : State} {e : EngineState} (h : s.ctl.engine.follows e) :
    Keeps s (s.setEngine e) where
  wins _ := Window.sameConfig_refl _
  trigs _ := TriggerLine.spends_refl _
  outstanding := rfl
  abandoned := rfl
  tick := rfl
  prescaler := rfl
  pending := rfl
  settings := rfl
  engine := h
  stack h := h

/-! ## Operations over the tables -/

theorem keeps_setSr (s : State) (n : Fin 16) (r : SubRing) : Keeps s (s.setSr n r) := Keeps.same

theorem keeps_setCr (s : State) (n : Fin 8) (c : CplRing) : Keeps s (s.setCr n c) := Keeps.same

theorem keeps_setLeftWrite (s : State) (n : Fin 8) (b : Bool) : Keeps s (s.setLeftWrite n b) := Keeps.same

theorem keeps_unwatch (s : State) (n : Fin 16) (p : Place) : Keeps s (s.unwatch n p) := Keeps.same

theorem keeps_moveWatch (s : State) (n : Fin 16) (p q : Place) : Keeps s (s.moveWatch n p q) := Keeps.same

theorem keeps_watchHead (s : State) (n : Fin 16) (b : Nat) : Keeps s (s.watchHead n b) := by
  unfold State.watchHead
  split
  · exact Keeps.refl s
  · exact Keeps.same

theorem keeps_produce (s : State) (n : Fin 8) (rec : CplRecord) : Keeps s (produce s n rec) := by
  unfold produce
  dsimp only
  split <;> exact Keeps.same

theorem keeps_reportFault (s : State) (k : FaultKind) (n : Fin 16) (a : Nat) :
    Keeps s (reportFault s k n a) := by
  unfold reportFault
  split <;>
  exact { wins := fun i => Window.sameConfig_refl _, trigs := fun i => TriggerLine.spends_refl _,
          outstanding := rfl, abandoned := rfl, tick := rfl, prescaler := rfl, pending := rfl,
          settings := rfl, engine := .inl rfl, stack := id }

theorem keeps_withdrawLane (s : State) : Keeps s (withdrawLane s) := Keeps.same

theorem keeps_withdrawCompletion (s : State) : Keeps s (withdrawCompletion s) := by
  unfold withdrawCompletion
  dsimp only
  split <;> exact Keeps.same

theorem keeps_withdrawAdmin (s : State) : Keeps s (withdrawAdmin s) := Keeps.same

theorem keeps_halt (s : State) : Keeps s (halt s) := by
  unfold halt
  split
  · next h =>
    have k : Keeps s (withdrawAdmin (withdrawCompletion s)) :=
      (keeps_withdrawCompletion s).trans (keeps_withdrawAdmin _)
    refine k.trans (keeps_setEngine (.inr (.inr ⟨?_, rfl⟩)))
    have e : (withdrawAdmin (withdrawCompletion s)).ctl = s.ctl := by
      unfold withdrawAdmin withdrawCompletion
      dsimp only
      split <;> rfl
    simpa [State.works, or_assoc, e] using h
  · exact Keeps.refl s

theorem keeps_finishAdmin (s : State) (st : Status) (v : Nat) : Keeps s (finishAdmin s st v) := by
  unfold finishAdmin
  exact (keeps_produce s 0 _).trans Keeps.same

/-! ## What follows a completion -/

theorem keeps_applyPending (s : State) (n : Fin 16) : Keeps s (applyPending s n) := by
  unfold applyPending
  split
  · split
    · exact Keeps.refl s
    · exact Keeps.same
  · exact Keeps.refl s

theorem keeps_chainAfter (s : State) (c : Context) (st : Status) (w : Word32) :
    Keeps s (chainAfter s c st w) := by
  unfold chainAfter
  split
  · exact Keeps.refl s
  · split
    · exact Keeps.same
    · dsimp only
      split <;> exact Keeps.same

theorem keeps_drainHead (s : State) (n : Fin 16) : Keeps s (drainHead s n) := by
  unfold drainHead
  dsimp only
  split
  · split
    · split
      · exact (keeps_produce s _ _).trans Keeps.same
      · exact Keeps.refl s
    · exact Keeps.refl s
  · exact Keeps.refl s

theorem keeps_endDispatched (s : State) (c : Context) (st : Status) (w : Word32) :
    Keeps s (endDispatched s c st w) := by
  unfold endDispatched
  dsimp only
  refine Keeps.trans ?_
    (((keeps_chainAfter _ c st w).trans (keeps_drainHead _ _)).trans (keeps_applyPending _ _))
  exact (keeps_produce s (s.sr c.ring).bound (contextRecord (s.sr c.ring) c st w)).trans
    (((keeps_unwatch _ c.ring .active).trans (keeps_unwatch _ c.ring .suspended)).trans
      (keeps_setSr _ c.ring _))

theorem keeps_abortHead (s : State) (n : Fin 16) : Keeps s (abortHead s n) := by
  unfold abortHead
  dsimp only
  split
  · split
    · exact ((keeps_produce s _ _).trans (keeps_unwatch _ _ _)).trans (keeps_setSr _ _ _)
    · exact keeps_drainHead s n
  · exact Keeps.refl s

theorem keeps_abortRing (s : State) (n : Fin 16) (e : Bool) : Keeps s (abortRing s n e) := by
  unfold abortRing
  exact ((keeps_setSr _ _ _).trans (keeps_applyPending _ _)).trans (keeps_setSr _ _ _)

theorem keeps_abortClose (s : State) : Keeps s (abortClose s) := by
  unfold abortClose
  split
  · next n e _ =>
    split
    · exact Keeps.trans ((keeps_abortHead s n).trans (keeps_abortRing (abortHead s n) n e)) Keeps.same
    · exact Keeps.refl s
  · exact Keeps.refl s

theorem keeps_abortFinish (s : State) : Keeps s (abortFinish s) := by
  unfold abortFinish
  split
  · split
    · exact keeps_finishAdmin s _ _
    · exact Keeps.refl s
  · exact Keeps.refl s

theorem keeps_closeAbort (s : State) : Keeps s (closeAbort s) :=
  (keeps_abortClose s).trans (keeps_abortFinish _)

/-! ## The order of the stack (R55) -/

/-- A part of the held contexts, in their order, is in order. -/
theorem stackInv_sublist {s t : State} (h : t.disp.levels.Sublist s.disp.levels) (k : s.StackInv) :
    t.StackInv := List.Pairwise.sublist h k

/-- Replacing the active context by one of the same level keeps the levels. -/
theorem levels_active {d : Dispatcher} {c c' : Context} (h : d.active = some c) (hl : c'.level = c.level) :
    ({ d with active := some c' } : Dispatcher).levels = d.levels := by
  simp [Dispatcher.levels, h, hl]

/-- The active context leaves. -/
theorem levels_idle (d : Dispatcher) :
    (({ d with active := none } : Dispatcher).levels).Sublist d.levels := by
  cases h : d.active <;> simp [Dispatcher.levels, h]

/-- The levels of the stack alone. -/
theorem levels_stack (d : Dispatcher) : (d.stack.map (fun c => c.level)).Sublist d.levels := by
  cases h : d.active <;> simp [Dispatcher.levels, h]

/-! ## Segments and decisions -/

theorem keeps_presentUnit (s : State) : Keeps s (presentUnit s) := by
  unfold presentUnit
  split
  · split
    · exact Keeps.same
    · exact Keeps.refl s
  · split
    · exact Keeps.same
    · exact Keeps.refl s
  · exact Keeps.refl s

theorem keeps_startSegment (s : State) : Keeps s (startSegment s) := by
  unfold startSegment
  split
  · refine Keeps.trans ?_ (keeps_presentUnit _)
    exact Keeps.same
  · exact Keeps.refl s

theorem keeps_takeCredit (s : State) (f : Fields) : Keeps s (takeCredit s f) := by
  unfold takeCredit
  split
  · exact
      { wins := fun i => Window.sameConfig_refl _
        trigs := fun i => by
          rw [State.trig_setTrig]
          split
          · next h => subst h; exact ⟨rfl, rfl, rfl, rfl, rfl, Nat.sub_le _ _⟩
          · exact TriggerLine.spends_refl _
        outstanding := rfl, abandoned := rfl, tick := rfl, prescaler := rfl, pending := rfl
        settings := rfl, engine := .inl rfl, stack := id }
  · exact Keeps.refl s

theorem takeCredit_disp (s : State) (f : Fields) : (takeCredit s f).disp = s.disp := by
  unfold takeCredit
  split <;> rfl

/-- A dispatch of a head whose ring outranks the top of the stack keeps everything. -/
theorem keeps_dispatch (s : State) (n : Fin 16)
    (h : s.StackInv → ∀ c ∈ s.disp.stack, (s.sr n).level < c.level) : Keeps s (dispatch s n) := by
  unfold dispatch
  dsimp only
  split
  · next hd _ =>
    split
    · refine ((keeps_setSr s n { s.sr n with head := .empty, dispatched := true }).trans
        (keeps_takeCredit _ hd.fields)).trans ?_
      refine Keeps.disp ?_
      intro inv
      have inv' : s.StackInv := by
        simpa only [State.StackInv, takeCredit_disp, State.setSr_disp] using inv
      have hs : (s.disp.stack.map (fun c => c.level)).Pairwise (fun a b => a < b) :=
        List.Pairwise.sublist (levels_stack s.disp) inv'
      simp only [State.StackInv, Dispatcher.levels, takeCredit_disp, State.setSr_disp, newContext,
        Option.toList_some, List.cons_append, List.nil_append, List.map_cons, List.pairwise_cons]
      exact ⟨by simpa using h inv', hs⟩
    · exact Keeps.refl s
  · exact Keeps.refl s

theorem keeps_push (s : State) (c : Context) (h : s.disp.active = some c) : Keeps s (push s c) := by
  unfold push
  refine Keeps.disp ?_
  intro inv
  simpa [State.StackInv, Dispatcher.levels, h] using inv

theorem keeps_resumeTop (s : State) : Keeps s (resumeTop s) := by
  unfold resumeTop
  split
  · next c rest h =>
    refine Keeps.trans (Keeps.disp ?_) (keeps_startSegment _)
    intro inv
    have := List.Pairwise.sublist (levels_stack s.disp) inv
    simpa [State.StackInv, Dispatcher.levels, h] using this
  · exact Keeps.refl s

theorem keeps_endActive (s : State) (c : Context) (st : Status) (w : Word32) :
    Keeps s (endActive s c st w) := by
  unfold endActive
  refine Keeps.trans ?_ ((keeps_endDispatched _ c st w).trans (keeps_closeAbort _))
  exact Keeps.disp (stackInv_sublist (levels_idle s.disp))

theorem keeps_startOrMark {f : State → State} (hf : ∀ s, Keeps s (f s)) (s : State) :
    Keeps s (startOrMark f s) := by
  unfold startOrMark
  split
  · split
    · exact (keeps_endActive s _ _ _).trans (hf _)
    · exact keeps_startSegment s
  · exact Keeps.refl s

theorem keeps_decisionC (k : Nat) : ∀ s, Keeps s (decisionC k s) := by
  induction k with
  | zero => intro s; exact Keeps.refl s
  | succ k ih =>
    intro s
    unfold decisionC
    split
    · exact Keeps.refl s
    · exact keeps_resumeTop s
    · next n _ hs =>
      exact (keeps_dispatch s n (by simp [hs])).trans (keeps_startOrMark ih _)
    · next n a rest _ hs =>
      split
      · next hl =>
        refine (keeps_dispatch s n ?_).trans (keeps_startOrMark ih _)
        intro inv c hc
        have p := List.Pairwise.sublist (levels_stack s.disp) inv
        rw [hs] at p hc
        rcases List.mem_cons.mp hc with rfl | hc
        · exact hl
        · simp only [List.map_cons, List.pairwise_cons] at p
          exact lt_trans hl (p.1 _ (List.mem_map_of_mem hc))
      · exact keeps_resumeTop s

theorem keeps_decisionA (s : State) : Keeps s (decisionA s) := by
  unfold decisionA
  split
  · exact keeps_decisionC _ s
  · exact Keeps.refl s

theorem keeps_afterEnd (s : State) : Keeps s (afterEnd s) := by
  unfold afterEnd
  split
  · exact keeps_decisionC _ s
  · next h => exact keeps_setEngine (.inr (.inl ⟨h, rfl⟩))
  · exact Keeps.refl s

theorem push_srs (s : State) (c : Context) : (push s c).srs = s.srs := rfl

theorem keeps_decisionB (s : State) (c : Context) (h : s.disp.active = some c) :
    Keeps s (decisionB s c) := by
  unfold decisionB
  split
  · split
    · exact keeps_startSegment s
    · split
      · next n _ =>
        split
        · next hl =>
          refine (keeps_push s c h).trans ((keeps_dispatch _ n ?_).trans
            (keeps_startOrMark (keeps_decisionC _) _))
          intro inv d hd
          have e : ((push s c).sr n).level = (s.sr n).level := rfl
          rw [e]
          have p : ((push s c).disp.stack.map (fun c => c.level)).Pairwise (fun a b => a < b) :=
            List.Pairwise.sublist (levels_stack _) inv
          simp only [push, List.map_cons, List.pairwise_cons] at p hd
          rcases List.mem_cons.mp hd with rfl | hd
          · exact hl
          · exact lt_trans hl (p.1 _ (List.mem_map_of_mem hd))
        · exact keeps_startSegment s
      · exact keeps_startSegment s
  · next he =>
    split
    · exact keeps_startSegment s
    · exact (keeps_push s c h).trans (keeps_setEngine (.inr (.inl ⟨he, rfl⟩)))
  · exact Keeps.same

theorem keeps_removeSuspended (s : State) (c : Context) (st : Status) :
    Keeps s (removeSuspended s c st) := by
  unfold removeSuspended
  refine Keeps.trans (Keeps.disp (stackInv_sublist ?_)) (keeps_endDispatched _ c st 0)
  simp only [Dispatcher.levels, List.map_append]
  exact List.Sublist.append (List.Sublist.refl _) (List.Sublist.map _ List.filter_sublist)

theorem keeps_settleRing (s : State) (n : Fin 16) : Keeps s (settleRing s n) := by
  unfold settleRing
  exact (((keeps_drainHead s n).trans (keeps_applyPending _ n)).trans (keeps_closeAbort _)).trans
    (keeps_decisionA _)

end Sys2Proof.Machine
end

