-- ==== Sys2Proof/Laws/Records.lean ====
section
/-! SUPPORT. What a record that the engine writes holds: little-endian bytes read back as the value they were
written from, and a layout of ascending fields holds each field at its position and 0 in every other byte. -/

namespace Sys2Proof

-- One proof after the other: many at once use up the memory limit.
set_option Elab.async false

/-! ## Little-endian values -/

/-- A field has as many bytes as its size. -/
@[simp] theorem leBytes_length (n v : Nat) : (leBytes n v).length = n := by
  induction n generalizing v with
  | zero => rfl
  | succ n ih => simp [leBytes, ih]

/-- The n bytes of a value read back as the value modulo 256^n. -/
theorem leValue_leBytes (n v : Nat) : leValue (leBytes n v) = v % 256 ^ n := by
  induction n generalizing v with
  | zero => simp [leBytes, leValue, Nat.mod_one]
  | succ n ih =>
    simp only [leBytes, leValue, ih, BitVec.toNat_ofNat]
    rw [show 256 ^ (n + 1) = 256 * 256 ^ n from by rw [Nat.pow_succ, Nat.mul_comm], Nat.mod_mul]

/-- The value of n bytes is below 256^n. -/
theorem leValue_lt (l : List Byte) : leValue l < 256 ^ l.length := by
  induction l with
  | nil => simp [leValue]
  | cons b bs ih =>
    have := b.isLt
    simp only [leValue, List.length_cons, Nat.pow_succ]
    omega

/-- A field of n bytes is below 256^n. -/
theorem fieldAt_lt (r : Line) (o n : Nat) : fieldAt r o n < 256 ^ n :=
  lt_of_lt_of_le (leValue_lt _) (Nat.pow_le_pow_right (by decide) (by simp [List.length_take]))

/-! ## Layouts -/

/-- The fields rise from an offset on without overlap. -/
def ascending (at_ : Nat) : List (Nat × Nat × Nat) → Prop
  | [] => True
  | p :: rest => at_ ≤ p.1 ∧ ascending (p.1 + p.2.1) rest

/-- Every one of ascending fields begins at the offset or after it. -/
theorem ascending_le {at_ : Nat} {fs : List (Nat × Nat × Nat)} (h : ascending at_ fs) : ∀ p ∈ fs, at_ ≤ p.1 := by
  induction fs generalizing at_ with
  | nil => simp
  | cons q qs ih =>
    obtain ⟨h1, h2⟩ := h
    intro p hp
    rcases List.mem_cons.1 hp with e | e
    · exact e ▸ h1
    · have := ih h2 p e; omega

/-- The bytes of a layout at a field are the field's. -/
theorem layoutFrom_field {at_ : Nat} {fs : List (Nat × Nat × Nat)} (h : ascending at_ fs) : ∀ p ∈ fs,
    ((layoutFrom at_ fs).drop (p.1 - at_)).take p.2.1 = leBytes p.2.1 p.2.2 := by
  induction fs generalizing at_ with
  | nil => simp
  | cons q qs ih =>
    obtain ⟨o, sz, v⟩ := q
    obtain ⟨h1, h2⟩ := h
    intro p hp
    rcases List.mem_cons.1 hp with e | e
    · subst e
      simp only [layoutFrom, List.append_assoc]
      rw [List.drop_left' (by simp), List.take_left' (leBytes_length _ _)]
    · have := ascending_le h2 p e
      simp only [layoutFrom] at *
      rw [← ih h2 p e, List.drop_append, List.drop_of_length_le (by simp [leBytes_length]; omega)]
      simp only [List.nil_append]
      congr 2
      simp [leBytes_length]; omega

/-- A byte of a layout outside every field is 0. -/
theorem layoutFrom_rest {at_ : Nat} {fs : List (Nat × Nat × Nat)} (h : ascending at_ fs) (i : Nat) (hi : at_ ≤ i) (hf : ∀ p ∈ fs, i < p.1 ∨ p.1 + p.2.1 ≤ i) :
    (layoutFrom at_ fs).getD (i - at_) 0 = 0 := by
  induction fs generalizing at_ with
  | nil => simp [layoutFrom]
  | cons q qs ih =>
    obtain ⟨o, sz, v⟩ := q
    obtain ⟨h1, h2⟩ := h
    simp only at h1 h2
    simp only [layoutFrom, List.append_assoc]
    rcases hf (o, sz, v) List.mem_cons_self with c | c
    · simp only at c
      rw [List.getD_append _ _ _ _ (by simp; omega), List.getD_eq_getElem _ _ (by simp; omega)]
      simp
    · simp only at c
      rw [← List.append_assoc, List.getD_append_right _ _ _ _ (by simp [leBytes_length]; omega)]
      have : i - at_ - (List.replicate (o - at_) 0 ++ leBytes sz v).length = i - (o + sz) := by simp [leBytes_length]; omega
      rw [this]; exact ih h2 c (fun p hp => hf p (List.mem_cons_of_mem _ hp))

/-- A layout ends where its fields end. -/
theorem layoutFrom_length {at_ b : Nat} {fs : List (Nat × Nat × Nat)} (h : ascending at_ fs) (h0 : at_ ≤ b) (hb : ∀ p ∈ fs, p.1 + p.2.1 ≤ b) : (layoutFrom at_ fs).length ≤ b - at_ := by
  induction fs generalizing at_ with
  | nil => simp [layoutFrom]
  | cons q qs ih =>
    obtain ⟨o, sz, v⟩ := q
    obtain ⟨h1, h2⟩ := h
    simp only at h1 h2
    have := hb (o, sz, v) List.mem_cons_self
    have := ih h2 this (fun p hp => hb p (List.mem_cons_of_mem _ hp))
    simp [layoutFrom, leBytes_length] at *; omega

/-- A list that fits is filled with zero bytes. -/
theorem lineOf_toList (l : List Byte) (h : l.length ≤ 64) :
    (lineOf l).toList = l ++ List.replicate (64 - l.length) 0 := by
  show (l ++ List.replicate 64 0).take 64 = _
  rw [List.take_append, List.take_of_length_le h, List.take_replicate, Nat.min_eq_left (by omega)]

/-- A layout of ascending fields holds each field, modulo the size of its position. -/
theorem layout_field (fs : List (Nat × Nat × Nat)) (h : ascending 0 fs) (hb : ∀ p ∈ fs, p.1 + p.2.1 ≤ 64)
    (p : Nat × Nat × Nat) (hp : p ∈ fs) : fieldAt (layout fs) p.1 p.2.1 = p.2.2 % 256 ^ p.2.1 := by
  have hl := layoutFrom_length h (Nat.zero_le 64) hb
  have h1 := layoutFrom_field h p hp
  simp only [Nat.sub_zero] at h1
  have h2 : p.2.1 = 0 ∨ p.1 + p.2.1 ≤ (layoutFrom 0 fs).length := by
    have := congrArg List.length h1
    simp at this
    omega
  unfold fieldAt layout
  rcases h2 with h2 | h2
  · rw [h2]
    simp [leValue, Nat.mod_one]
  · rw [lineOf_toList _ (by omega), List.drop_append, List.take_append,
      show p.1 - (layoutFrom 0 fs).length = 0 by omega,
      show p.2.1 - ((layoutFrom 0 fs).drop p.1).length = 0 by simp; omega]
    simp [h1, leValue_leBytes]

/-- A layout of ascending fields is 0 in every byte outside them. -/
theorem layout_rest (fs : List (Nat × Nat × Nat)) (h : ascending 0 fs) (hb : ∀ p ∈ fs, p.1 + p.2.1 ≤ 64)
    (i : Nat) (hi : i < 64) (hf : ∀ p ∈ fs, i < p.1 ∨ p.1 + p.2.1 ≤ i) : byteAt (layout fs) i = 0 := by
  have hl := layoutFrom_length h (Nat.zero_le 64) hb
  have h1 := layoutFrom_rest h i (Nat.zero_le _) hf
  simp only [Nat.sub_zero] at h1
  unfold byteAt fieldAt layout
  rw [lineOf_toList _ (by omega)]
  generalize hm : layoutFrom 0 fs ++ List.replicate (64 - (layoutFrom 0 fs).length) 0 = m
  have hmi : m.getD i 0 = 0 := by
    rw [← hm]
    by_cases hc : i < (layoutFrom 0 fs).length
    · rw [List.getD_append _ _ _ _ hc]
      exact h1
    · rw [List.getD_append_right _ _ _ _ (by omega), List.getD_eq_getElem _ _ (by simp; omega)]
      simp
  have hml : i < m.length := by
    rw [← hm]
    simp
    omega
  have hd : (m.drop i).take 1 = [m.getD i 0] := by
    rw [List.getD_eq_getElem _ _ hml, List.drop_eq_getElem_cons hml, List.take_succ_cons, List.take_zero]
  rw [hd, hmi]
  rfl

end Sys2Proof
end

