-- ==== Sys2Proof/Laws/Units.lean ====
section
/-! SUPPORT. What the operations of the lane, the Ring Fetch Unit, the Completion Unit, the Memory Port and
the Admin Unit keep, each as one lemma over the relation of Laws/Frame. -/

namespace Sys2Proof.Machine

-- One proof after the other: many at once use up the memory limit.
set_option Elab.async false

/-! ## Transfer Lane -/

theorem keeps_boundaryOf (s : State) (c : Context) (g : Segment) (h : s.disp.active = some c) :
    Keeps s (boundaryOf s c g) := by
  unfold boundaryOf
  dsimp only
  have k : Keeps s { s with disp := { s.disp with
      active := some (c.advance g.length (s.lane.buffer1.take g.length)) } } := by
    refine Keeps.disp fun inv => ?_
    simpa only [State.StackInv, levels_active h (c' := c.advance _ _) rfl] using inv
  split
  · exact (keeps_endActive s _ _ _).trans (keeps_afterEnd _)
  · exact (keeps_endActive s _ _ _).trans (keeps_afterEnd _)
  · split
    · exact k.trans ((keeps_endActive _ _ _ _).trans (keeps_afterEnd _))
    · exact k.trans (keeps_decisionB _ _ rfl)

theorem keeps_boundary (s : State) : Keeps s (boundary s) := by
  unfold boundary
  split
  · next c g h _ => exact keeps_boundaryOf s c g h
  · exact Keeps.refl s

theorem keeps_endReading (s : State) : Keeps s (endReading s) := by
  unfold endReading
  split
  · split
    · split
      · exact Keeps.trans Keeps.same (keeps_presentUnit _)
      · exact keeps_boundary s
    · exact Keeps.refl s
  · exact Keeps.refl s

theorem keeps_endWriting (s : State) : Keeps s (endWriting s) := by
  unfold endWriting
  split
  · split
    · exact keeps_boundary s
    · exact Keeps.refl s
  · exact Keeps.refl s

theorem keeps_countSubstituted (s : State) (m : Mapping) (b : Nat) : Keeps s (countSubstituted s m b) := by
  unfold countSubstituted
  split
  · exact Keeps.refl s
  · exact
      { wins := fun j => by
          show (s.win j).sameConfig ((s.setWin _ _).win j)
          rw [State.win_setWin]
          split
          · next h => subst h; exact ⟨rfl, rfl, rfl, rfl, rfl⟩
          · exact Window.sameConfig_refl _
        trigs := fun _ => TriggerLine.spends_refl _
        outstanding := rfl, abandoned := rfl, tick := rfl, prescaler := rfl, pending := rfl
        settings := rfl, engine := .inl rfl
        stack := fun inv => by
          cases h : s.disp.active <;> simp_all [State.StackInv, Dispatcher.levels] }

theorem keeps_readAnswered (s : State) (k : Nat) (a : ReadAnswer) : Keeps s (readAnswered s k a) := by
  unfold readAnswered
  split
  · split
    · split
      · dsimp only
        split
        · exact Keeps.trans Keeps.same ((keeps_countSubstituted _ _ _).trans (keeps_endReading _))
        · exact Keeps.trans Keeps.same (keeps_endReading _)
      · exact Keeps.trans Keeps.same (keeps_endReading _)
    · exact Keeps.refl s
  · exact Keeps.refl s

theorem keeps_writeAnswered (s : State) (k : Nat) (ok : Bool) : Keeps s (writeAnswered s k ok) := by
  unfold writeAnswered
  split
  · split <;> exact Keeps.trans Keeps.same (keeps_endWriting _)
  · exact Keeps.refl s

/-! ## Ring Fetch Unit -/

theorem keeps_presentFetch (s : State) : Keeps s (presentFetch s) := by
  unfold presentFetch
  split
  · exact Keeps.refl s
  · split
    · exact Keeps.same
    · exact Keeps.refl s

theorem keeps_beginAdmission (s : State) (n : Fin 16) : Keeps s (beginAdmission s n) := by
  unfold beginAdmission
  exact Keeps.trans Keeps.same (keeps_presentFetch _)

theorem keeps_placeTransfer (s : State) (n : Fin 16) (r : Line) : Keeps s (placeTransfer s n r) := by
  unfold placeTransfer
  dsimp only
  split
  · exact Keeps.trans Keeps.same (keeps_watchHead _ _ _)
  · exact Keeps.same

theorem keeps_placeAdmin (s : State) (r : Line) : Keeps s (placeAdmin s r) := Keeps.same

theorem keeps_failFetch (s : State) (n : Fin 16) : Keeps s (failFetch s n) := by
  unfold failFetch
  dsimp only
  split
  · exact Keeps.trans Keeps.same ((keeps_reportFault _ _ _ _).trans (keeps_halt _))
  · exact Keeps.trans Keeps.same ((keeps_reportFault _ _ _ _).trans
      ((keeps_closeAbort _).trans (keeps_decisionA _)))

/-! ## Completion Unit -/

theorem keeps_presentRecord (s : State) (n : Fin 8) : Keeps s (presentRecord s n) := Keeps.same

theorem keeps_presentMessage (s : State) (n : Fin 8) : Keeps s (presentMessage s n) := Keeps.same

theorem keeps_presentCompletion (s : State) : Keeps s (presentCompletion s) := by
  unfold presentCompletion
  split
  · exact Keeps.refl s
  · split
    · split
      · exact keeps_presentMessage s _
      · exact keeps_presentRecord s _
    · exact Keeps.refl s

theorem keeps_recordWritten (s : State) (n : Fin 8) : Keeps s (recordWritten s n) := by
  unfold recordWritten
  split
  · exact Keeps.same
  · split <;> exact Keeps.trans Keeps.same (keeps_abortFinish _)

theorem keeps_recordFailed (s : State) (n : Fin 8) : Keeps s (recordFailed s n) := by
  unfold recordFailed
  split
  · exact Keeps.same
  · split
    · exact Keeps.trans Keeps.same (keeps_abortFinish _)
    · dsimp only
      split
      · exact Keeps.trans Keeps.same ((keeps_reportFault _ _ _ _).trans (keeps_halt _))
      · exact Keeps.trans Keeps.same ((keeps_reportFault _ _ _ _).trans (keeps_abortFinish _))

theorem keeps_messageWritten (s : State) (n : Fin 8) : Keeps s (messageWritten s n) := by
  unfold messageWritten
  split
  · exact Keeps.same
  · split <;> exact Keeps.same

theorem keeps_messageFailed (s : State) (n : Fin 8) (a : Nat) : Keeps s (messageFailed s n a) := by
  unfold messageFailed
  split
  · exact Keeps.same
  · split
    · exact Keeps.same
    · exact Keeps.trans Keeps.same (keeps_reportFault _ _ _ _)

/-! ## NOTIFY -/

theorem keeps_tailUpdate (s : State) (n : Fin 16) (x : Nat) : Keeps s (tailUpdate s n x) := by
  unfold tailUpdate
  split
  · exact Keeps.refl s
  · split
    · exact keeps_reportFault _ _ _ _
    · split
      · exact keeps_reportFault _ _ _ _
      · exact Keeps.same

theorem keeps_headUpdate (s : State) (n : Fin 16) (x : Nat) (a : Bool) :
    Keeps s (headUpdate s n x a) := by
  unfold headUpdate
  split
  · exact Keeps.refl s
  · split
    · dsimp only
      split
      · exact keeps_reportFault _ _ _ _
      · split
        · exact keeps_reportFault _ _ _ _
        · exact Keeps.same
    · exact keeps_reportFault _ _ _ _

/-! ## Admin Unit -/

theorem keeps_adminChecked {op : AdminOp} {r : Line} {b : Bool} {s body : State} (h : Keeps s body) :
    Keeps s (adminChecked op r b s body) := by
  unfold adminChecked
  split
  · exact h
  · exact keeps_finishAdmin s _ _

/-- A refused administrative command keeps everything, and so does one whose effect does. -/
theorem keeps_refused {p : Prop} [Decidable p] {s body : State} {st : Status} (h : Keeps s body) :
    Keeps s (if p then finishAdmin s st 0 else body) := by
  split
  · exact keeps_finishAdmin s _ _
  · exact h

theorem keeps_done {s t : State} {st : Status} {v : Nat} (h : Keeps s t) :
    Keeps s (finishAdmin t st v) := h.trans (keeps_finishAdmin t st v)

theorem keeps_runCreateCr (r : Line) (s : State) : Keeps s (runCreateCr r s) :=
  keeps_adminChecked (keeps_refused (keeps_done Keeps.same))

theorem keeps_deletedCr (s : State) (n : Fin 8) : Keeps s (deletedCr s n) := Keeps.same

theorem keeps_runDeleteCr (r : Line) (s : State) : Keeps s (runDeleteCr r s) :=
  keeps_adminChecked (keeps_refused (keeps_refused (keeps_done (keeps_deletedCr _ _))))

theorem keeps_runResetCr (r : Line) (s : State) : Keeps s (runResetCr r s) :=
  keeps_adminChecked (keeps_refused (keeps_done Keeps.same))

theorem keeps_runCreateSr (r : Line) (s : State) : Keeps s (runCreateSr r s) :=
  keeps_adminChecked (keeps_refused (keeps_refused (keeps_done Keeps.same)))

theorem keeps_runDeleteSr (r : Line) (s : State) : Keeps s (runDeleteSr r s) :=
  keeps_adminChecked (keeps_refused (keeps_refused (keeps_done Keeps.same)))

theorem keeps_runSetLevel (r : Line) (s : State) : Keeps s (runSetLevel r s) := by
  refine keeps_adminChecked (keeps_refused ?_)
  split <;> exact keeps_done Keeps.same

theorem keeps_setStates (st : SrState) (ns : List (Fin 16)) : ∀ s, Keeps s (setStates st s ns) := by
  induction ns with
  | nil => intro s; exact Keeps.refl s
  | cons n ns ih => intro s; exact (keeps_setSr s n { s.sr n with state := st }).trans (ih _)

theorem keeps_runPauseSr (r : Line) (s : State) : Keeps s (runPauseSr r s) :=
  keeps_adminChecked (keeps_refused (keeps_refused (keeps_done (keeps_setStates _ _ _))))

theorem keeps_runResumeSr (r : Line) (s : State) : Keeps s (runResumeSr r s) :=
  keeps_adminChecked (keeps_refused (keeps_refused (keeps_done (keeps_setStates _ _ _))))

theorem keeps_abortDispatched (s : State) (n : Fin 16) : Keeps s (abortDispatched s n) := by
  unfold abortDispatched
  split
  · next c h =>
    split
    · refine Keeps.disp fun inv => ?_
      simpa only [State.StackInv, levels_active h (c' := c.requested .aborted) rfl] using inv
    · split
      · exact keeps_removeSuspended _ _ _
      · exact Keeps.refl s
  · split
    · exact keeps_removeSuspended _ _ _
    · exact Keeps.refl s

theorem keeps_runAbortSr (r : Line) (s : State) : Keeps s (runAbortSr r s) := by
  refine keeps_adminChecked (keeps_refused ?_)
  refine Keeps.trans ?_ (keeps_closeAbort _)
  split
  · exact Keeps.trans Keeps.same (keeps_abortDispatched _ _)
  · exact Keeps.same

theorem keeps_runResetSr (r : Line) (s : State) : Keeps s (runResetSr r s) := by
  refine keeps_adminChecked (keeps_refused (keeps_refused (keeps_done ?_)))
  exact (Keeps.trans Keeps.same (keeps_applyPending _ _)).trans (keeps_setSr _ _ _)

theorem keeps_runQuery (r : Line) (s : State) : Keeps s (runQuery r s) := keeps_adminChecked Keeps.same

theorem keeps_runIdentify (r : Line) (s : State) : Keeps s (runIdentify r s) :=
  keeps_adminChecked Keeps.same

theorem keeps_resultAnswered (s : State) (ok : Bool) : Keeps s (resultAnswered s ok) := by
  unfold resultAnswered
  split
  · split
    · exact keeps_finishAdmin s _ _
    · exact Keeps.same
  · exact Keeps.refl s

/-- The four commands that own the windows, the trigger lines and the engine parameters. -/
def configures : AdminOp → Bool
  | .setWindow | .clearWindow | .setTrigger | .setEngine => true
  | _ => false

theorem keeps_runAdmin (op : Option AdminOp) (r : Line) (s : State)
    (h : ∀ o, op = some o → configures o = false) : Keeps s (runAdmin op r s) := by
  cases op with
  | none => exact keeps_finishAdmin s _ _
  | some o =>
    cases o with
    | createCr => exact keeps_runCreateCr r s
    | deleteCr => exact keeps_runDeleteCr r s
    | createSr => exact keeps_runCreateSr r s
    | deleteSr => exact keeps_runDeleteSr r s
    | setLevel => exact keeps_runSetLevel r s
    | pauseSr => exact keeps_runPauseSr r s
    | resumeSr => exact keeps_runResumeSr r s
    | abortSr => exact keeps_runAbortSr r s
    | resetSr => exact keeps_runResetSr r s
    | resetCr => exact keeps_runResetCr r s
    | query => exact keeps_runQuery r s
    | identify => exact keeps_runIdentify r s
    | setWindow => exact absurd (h _ rfl) (by decide)
    | clearWindow => exact absurd (h _ rfl) (by decide)
    | setTrigger => exact absurd (h _ rfl) (by decide)
    | setEngine => exact absurd (h _ rfl) (by decide)

/-! ## Expiries and fault messages -/

theorem keeps_expireHead (s : State) (n : Fin 16) : Keeps s (expireHead s n) := by
  unfold expireHead
  dsimp only
  split
  · split
    · split
      · exact Keeps.trans Keeps.same (keeps_settleRing _ _)
      · exact Keeps.same
    · exact Keeps.refl s
  · exact Keeps.refl s

theorem keeps_expireActive (s : State) (n : Fin 16) : Keeps s (expireActive s n) := by
  unfold expireActive
  split
  · next c h =>
    split
    · refine Keeps.disp fun inv => ?_
      dsimp only
      split <;> simpa only [State.StackInv, levels_active h (c' := { c with late := true }) rfl,
        levels_active h (c' := c.requested .deadlineMissed) rfl] using inv
    · exact Keeps.refl s
  · exact Keeps.refl s

theorem markLate_levels (stack : List Context) (n : Fin 16) :
    (markLate stack n).map (fun c => c.level) = stack.map (fun c => c.level) := by
  simp only [markLate, List.map_map]
  refine List.map_congr_left fun c _ => ?_
  by_cases h : c.ring = n <;> simp [h]

theorem keeps_expireSuspended (s : State) (n : Fin 16) : Keeps s (expireSuspended s n) := by
  unfold expireSuspended
  split
  · split
    · exact (keeps_removeSuspended _ _ _).trans (keeps_closeAbort _)
    · refine Keeps.disp fun inv => ?_
      simpa only [State.StackInv, Dispatcher.levels, List.map_append, markLate_levels] using inv
  · exact Keeps.refl s

theorem keeps_deliverExpiry (s : State) (n : Fin 16) (p : Place) : Keeps s (deliverExpiry s n p) := by
  cases p with
  | head => exact keeps_expireHead s n
  | active => exact keeps_expireActive s n
  | suspended => exact keeps_expireSuspended s n

/-- A change of the fault message bookkeeping alone. -/
theorem keeps_faultMessaged (s : State) : Keeps s (faultMessaged s) :=
  { wins := fun _ => Window.sameConfig_refl _, trigs := fun _ => TriggerLine.spends_refl _
    outstanding := rfl, abandoned := rfl, tick := rfl, prescaler := rfl, pending := rfl
    settings := rfl, engine := .inl rfl, stack := id }

theorem keeps_deliverError (req : Request) (s : State) : Keeps s (deliverError req s) := by
  unfold deliverError
  split
  · exact keeps_failFetch s _
  · exact keeps_readAnswered s _ _
  · exact keeps_writeAnswered s _ _
  · exact keeps_recordFailed s _
  · exact keeps_messageFailed s _ _
  · exact keeps_resultAnswered s _
  · exact keeps_faultMessaged s

theorem keeps_presentNext (s : State) (q : Requester) : Keeps s (presentNext s q) := by
  cases q with
  | ringFetch => exact keeps_presentFetch s
  | lane => exact keeps_presentUnit s
  | completion => exact keeps_presentCompletion s
  | admin => exact Keeps.refl s
  | control => exact Keeps.refl s

end Sys2Proof.Machine
end

