-- ==== Sys2Proof/Tests/Slice0.lean ====
section
/-! SUPPORT. Tests: ill-formed commands fail the checks, single steps give what the manual's tables and worked
sequences give, and for every statement with hypotheses a concrete state and operands meet all of them. -/

open Sys2Proof Sys2Proof.Machine Sys2Proof.Claims

namespace Sys2Proof.Tests

-- One theorem is checked after the other: many kernel evaluations at once use up the memory limit.
set_option Elab.async false

/-! ## Helpers -/

/-- A part of the next state, if there is one. -/
def after {α : Type} (o : Host.Outcome State Fault Refusal) (f : State → α) : Option α :=
  match o with
  | .next t => some (f t)
  | _ => none

/-- The fault a command meets, if it faults. -/
def stop (o : Host.Outcome State Fault Refusal) : Option Fault :=
  match o with
  | .fault f => some f
  | _ => none

/-- A record with the given fields. -/
def rec64 (op : Nat) (fs : List (Nat × Nat × Nat)) : Line := layout ((0, 1, op) :: fs)

/-- SR0 and CR0 initialised, SR2 bound to CR1 at level 3, RUNNING. -/
def live : State :=
  let s := { State.reset with ctl := { Control.cleared with engine := .running, enable := true } }
  let s := s.setSr 0 { SubRing.cleared with state := .active, base := 0x100000, log2 := 6 }
  let s := s.setSr 2 { SubRing.cleared with state := .active, base := 0x20000, log2 := 3, bound := 1, level := 3 }
  let s := s.setCr 0 { CplRing.cleared with
    state := .active, base := 0x104000, log2 := 6, phase := true, armed := true, threshold := 1 }
  s.setCr 1 { CplRing.cleared with
    state := .active, base := 0x30000, log2 := 4, phase := true, armed := true, threshold := 1 }

/-- A transaction with identifier 5, issued at tick 0. -/
def tx (k : TransactionKind) (a n : Nat) : Transaction := ⟨5, 0, ⟨k, a, n, []⟩⟩

/-- A state with one transaction outstanding. -/
def holding (s : State) (t : Transaction) : State :=
  { s with port := { s.port with outstanding := [t] } }

/-- A state with a fetch of a ring outstanding. -/
def fetching (s : State) (n : Fin 16) : State :=
  let s := s.setSr n { s.sr n with fetchInFlight := true, producer := 1 }
  let s := s.setCr (s.sr n).bound { s.cr (s.sr n).bound with reserved := 1 }
  holding s (tx (.recordFetch n) ((s.sr n).base) 64)

/-- An engine ready to take an administrative record. -/
def ready : State := fetching live 0

/-- The fetch that `ready` waits for. -/
def adminTx : Transaction := tx (.recordFetch 0) 0x100000 64

/-- A state in another engine state. -/
def inEngine (s : State) (e : EngineState) : State := { s with ctl := { s.ctl with engine := e } }

/-- The transfer record of a COPY of 256 bytes from H'1000 to H'2000. -/
def copyRecord : Line := rec64 0x01 [(4, 2, 0xA), (12, 4, 256), (16, 8, 0x1000), (24, 8, 0x2000)]

/-- A dispatched COPY of SR2. -/
def copyContext : Context where
  ring := 2
  op := .copy
  fields := decodeFields copyRecord
  continuation := false
  level := 3
  total := 256
  bytesDone := 0
  row := 0
  rowOffset := 0
  crc := none
  expiry := none
  late := false
  preempted := false
  substituted := false
  request := none

/-- The COPY is active and its segment is being read or written. -/
def moving (st : LaneState) : State :=
  let s := live.setSr 2 { live.sr 2 with dispatched := true, consumer := 1, producer := 1 }
  { s with
    disp := { s.disp with active := some copyContext }
    lane := { Lane.cleared with state := st, segment := some (planSegment s.wins 256 copyContext) } }

/-- A completion record of SR2. -/
def cplRecord : CplRecord := ⟨0xA, 2, .success, 1, false, false, false, false, 0, 256, false⟩

/-- CR1 with one record to write. -/
def withRecord : State := live.setCr 1 { live.cr 1 with outbound := [cplRecord], reserved := 1 }

/-- CR1 with its record's write outstanding. -/
def writingRecord : State :=
  holding (withRecord.setCr 1 { withRecord.cr 1 with recordWrite := true }) (tx (.completionWrite 1) 0x30000 16)

/-- CR1 with a message due. -/
def withMessage : State := live.setCr 1 { live.cr 1 with unsignalled := 1, vector := ⟨true, 0x5000, 7⟩ }

/-- CR1 with its message write outstanding and an arm held. -/
def writingMessage : State :=
  holding (withMessage.setCr 1 { withMessage.cr 1 with message := .inFlightArmHeld })
    (tx (.messageWrite 1) 0x5000 4)

/-- The COPY with a budget of 5, admitted at tick 0. -/
def watchedContext (abortOnMiss : Bool) : Context :=
  let f := decodeFields copyRecord
  { copyContext with
    fields := { f with budget := 5, flags := { f.flags with abortOnMiss := abortOnMiss } }
    expiry := some 5 }

/-- The watched COPY held at a place, the tick being 5. -/
def watched (abortOnMiss : Bool) (p : Place) : State :=
  let c := watchedContext abortOnMiss
  let s := match p with
    | .head => live.setSr 2 { live.sr 2 with head := .transfer ⟨c.fields, false, 0, .execute .copy, false⟩ }
    | .active => { live.setSr 2 { live.sr 2 with dispatched := true } with
        disp := { live.disp with active := some c } }
    | .suspended => { live.setSr 2 { live.sr 2 with dispatched := true } with
        disp := { live.disp with stack := [c] } }
  { s with time := ⟨5, 0, [⟨2, p, 0, 5, 5⟩]⟩ }

/-- A port with two requests presented and n transactions outstanding, identifier 31 abandoned. -/
def presenting (n : Nat) : State := { live with port := { live.port with
  ringFetch := some ⟨.recordFetch 2, 0x20000, 64, []⟩
  control := some ⟨.faultMessage, 0x5000, 4, []⟩
  outstanding := (List.range n).map (fun i => ⟨finOf 32 i, 0, ⟨.recordFetch 2, 0, 64, []⟩⟩)
  abandoned := [31] } }

/-- A COPY of a ring to execute, or MARK in its place. -/
def headCopy (op : Opcode) : HeadCmd := ⟨decodeFields copyRecord, false, 0, .execute op, false⟩

/-- A context on the stack, at level 6 or 1. -/
def below (l : Fin 8) : Context := { copyContext with ring := 7, level := l }

/-- A first member of a chain with CRC that is dispatched. -/
def chainContext : Context := { copyContext with
  fields := decodeFields (rec64 0x01 [(2, 1, 0x05), (12, 4, 256)]), crc := some 0xFFFFFFFF }

/-- Its ring with the continuation in the head slot. -/
def chained : State := live.setSr 2 { live.sr 2 with
  dispatched := true, link := .linked, head := .transfer { headCopy .copy with continuation := true } }

/-- A settled head, of a chain member. -/
def settledHead (st : Status) : HeadCmd := { headCopy .copy with continuation := true, settlement := .settled st 0 }

/-- An engine ready for an administrative record with a COPY of SR2 active. -/
def readyActive : State := { fetching (moving .reading) 0 with admin := .idle }

/-- A state with a locked window, a trigger line with credits, contexts at two levels, an outstanding and
an abandoned identifier, and a clock command waiting. -/
def busy : State :=
  let s := (readyActive.setWin 1 ⟨true, true, 0x10000, 0x300, 0x80000, 512⟩).setTrig 2 ⟨.rising, 2, true, 1, 255, true⟩
  let s := s.setSr 7 { live.sr 2 with level := 6, dispatched := true, head := .transfer (headCopy .copy) }
  let s := s.setCr 1 { s.cr 1 with outbound := [cplRecord], reserved := 4, producer := 5, consumer := 10 }
  { s with
    disp := { s.disp with stack := [below 6] }
    port := { s.port with abandoned := [31] }
    pending := [.prescalerCount] }

/-! ## Ill-formed commands: what the checks refuse, and what the rules still give them -/

/-- R138: the record's own opcode governs; a row that carries another one is not well formed and runs as the
command the record names. -/
theorem test_admin_row_of_other_opcode :
    (Instr.createCr (rec64 0x41 [])).wellFormed = false ∧ (Instr.adminUnknown (rec64 0x4F [])).wellFormed = false ∧
    after (exec (.createCr (rec64 0x41 [])) ready) id = after (exec (.deleteCr (rec64 0x41 [])) ready) id ∧
    after (exec (.adminUnknown (rec64 0x30 [])) ready) (fun t => ((t.cr 0).outbound.map (fun r => r.status))) =
      after (exec (.query (rec64 0x30 [])) ready) (fun t => ((t.cr 0).outbound.map (fun r => r.status))) := by
  decide +kernel

theorem test_every_admin_row_checks_its_opcode :
    ∀ i ∈ ([.deleteCr, .createSr, .deleteSr, .setLevel, .pauseSr, .resumeSr, .abortSr, .resetSr, .resetCr,
      .setWindow, .clearWindow, .setTrigger, .setEngine, .query, .identify] : List (Line → Instr)),
      (i (rec64 0x40 [])).wellFormed = false := by decide +kernel

/-- R158: DEVCTL bits that ask for no reset are decoded as any DEVCTL write. -/
theorem test_soft_reset_that_asks_none :
    after (exec (.softResetRequest true true false) live) id = after (exec (.pause true) live) id ∧
      (Instr.softResetRequest true false false).wellFormed = false := by decide +kernel

/-- R171: an access of another width or alignment changes nothing, also where it runs past H'3F. -/
theorem test_register_write_of_other_shape :
    after (exec (.registerWrite 0x3E 4 0) State.reset) id = some State.reset ∧
      after (exec (.registerWrite 0x3C 8 0) State.reset) id = some State.reset ∧
      (Instr.registerWrite 0x40 4 0).wellFormed = false ∧
      (Instr.registerWrite 0x04 0 0).wellFormed = false := by decide +kernel

theorem test_table_words_spell_nothing (w : Nat) (s : State) :
    decodeTableWord 8 w = none ∧ s.withFetchWord 8 w = s := ⟨rfl, rfl⟩

/-! ## Single steps against the manual's tables -/

/-- R4, Table 1.3: the producer index takes INDEX; an index of the ring's size reports NOTIFY_RANGE. -/
theorem test_tail_update :
    after (exec (.submissionTailUpdate 2 7 true) live) (fun t => (t.sr 2).producer) = some 7 ∧
    after (exec (.submissionTailUpdate 2 8 false) live)
      (fun t => ((t.sr 2).producer, t.ctl.capture.kind)) = some (0, .notifyRange) := by decide +kernel

/-- R5, Table 1.3: INDEX = C is accepted and re-arms; ring 9 reports NOTIFY_RANGE. -/
theorem test_head_update :
    after (exec (.completionHeadUpdate 1 0 true) (live.setCr 1 { live.cr 1 with armed := false }))
      (fun t => (t.cr 1).armed) = some true ∧
    after (exec (.completionHeadUpdate 9 0 true) live)
      (fun t => (t.ctl.capture.kind, t.ctl.capture.ring)) = some (.notifyRange, 9) := by decide +kernel

/-- Table 10.6: the registers of the example. -/
def example106 (cr0 : BitVec 48) : State :=
  { State.reset with ctl := { Control.cleared with srBase := 0x100000, crBase := cr0, srLog2 := 6, crLog2 := 6 } }

/-- Table 10.6: CR0's base H'0010_4020 fails check 4, H'0010_4000 passes. -/
theorem test_enable :
    after (exec (.enable false) (example106 0x104020)) (fun t => (t.ctl.engine, t.ctl.enable, t.ctl.capture, t.faultN))
      = some (.off, false, ⟨true, false, .adminConfig, 0, 0x104020⟩, false) ∧
    after (exec (.enable false) (example106 0x104000))
      (fun t => (t.ctl.engine, t.ctl.enable, (t.cr 0).armed, (t.cr 0).phase, t.ctl.owed))
      = some (.running, true, true, true, 0) := by decide +kernel

/-- Table 10.2: PAUSE with an active context passes to PAUSING, without one to PAUSED. -/
theorem test_pause :
    after (exec (.pause true) (moving .reading)) (fun t => t.ctl.engine) = some .pausing ∧
    after (exec (.pause true) live) (fun t => t.ctl.engine) = some .paused := by decide +kernel

/-- R163: with a transaction outstanding the engine waits in RESETTING; R164: with none it is OFF. -/
theorem test_soft_reset :
    after (exec (.softResetRequest true false true) ready) (fun t => t.ctl.engine) = some .resetting ∧
    after (exec (.softResetRequest false false false) live) (fun t => (t.ctl.engine, (t.sr 2).state)) =
      some (.off, .absent) := by decide +kernel

/-- Table 10.6: the clear keeps kind and address; FAULT_N goes high. -/
theorem test_fault_clear :
    after (exec .faultClear { live with ctl := { live.ctl with
        capture := ⟨true, true, .adminConfig, 0, 0x104020⟩ } }) (fun t => (t.ctl.capture, t.faultN)) =
      some (⟨false, false, .adminConfig, 0, 0x104020⟩, true) := by decide +kernel

/-- Table 11.2: a 32-bit NOTIFY write of H'0002_0007 is a tail update of SR2 to 7; a byte write is not. -/
theorem test_register_write :
    after (exec (.registerWrite 0x0C 4 0x00020007) live) (fun t => (t.sr 2).producer) = some 7 ∧
    after (exec (.registerWrite 0x0C 1 0x00020007) live) (fun t => decide (t = live)) = some true := by decide +kernel

/-- Table 11.1: the ID register reads H'2A61_0103 after power-on reset. -/
theorem test_power_on_reset :
    after (exec .powerOnReset (moving .writing)) (fun t => (readRegister t 0, decide (t = State.reset))) =
      some (0x2A610103, true) := by decide +kernel

/-- R8: the read is presented at base + C × 64; a full ring admits nothing. -/
theorem test_admission :
    after (exec (.admissionBegin 2) (live.setSr 2 { live.sr 2 with producer := 3, consumer := 2 }))
      (fun t => (t.port.ringFetch.map (fun q => (q.address, q.size)), (t.cr 1).reserved)) =
      some (some (0x20080, 64), 1) ∧
    after (exec (.admissionBegin 2) live) (fun t => decide (t = live)) = some true := by decide +kernel

/-- R10, R60: the record is placed and, the lane being idle, dispatched in the same event. -/
theorem test_record_fetch :
    after (exec (.recordFetchSuccess 5 copyRecord) (fetching live 2))
      (fun t => (t.disp.active.map (fun c => (c.ring, c.total)), (t.sr 2).head, (t.sr 2).consumer, t.lane.state)) =
      some (some (2, 256), .empty, 1, .reading) ∧
    after (exec (.recordFetchSuccess 5 (rec64 0x07 [])) (fetching live 2))
      (fun t => (t.cr 1).outbound.map (fun c => (c.status, c.result))) = some [(.invalid, 1)] := by
  decide +kernel

/-- R11: a failing fetch faults SR2; R161: SR0's failing fetch halts the engine. -/
theorem test_record_fetch_error :
    after (exec (.recordFetchError 5) (fetching live 2))
      (fun t => ((t.sr 2).state, (t.sr 2).consumer, (t.cr 1).reserved, t.ctl.capture.kind)) =
      some (.faulted, 0, 0, .srFetch) ∧
    after (exec (.recordFetchError 5) ready) (fun t => (t.ctl.engine, t.ctl.capture.kind)) =
      some (.halted, .adminFetch) := by decide +kernel

/-- R84: the rotation after Engine Control starts at the Ring Fetch Unit. -/
theorem test_grant :
    after (exec (.memoryGrant 9) { live with port := { live.port with
        ringFetch := some ⟨.recordFetch 2, 0x20000, 64, []⟩
        control := some ⟨.faultMessage, 0x5000, 4, []⟩ } })
      (fun t => (t.port.outstanding.map (fun x => x.id), t.port.pointer, t.port.control.isSome)) =
      some ([9], .ringFetch, true) := by decide +kernel

/-- The reads of the COPY of `moving` with all but one answered. -/
def lastRead : State :=
  let s := moving .reading
  let g := planSegment s.wins 256 copyContext
  holding { s with lane := { s.lane with segment := some { g with
    reads := [⟨false, 0, .success⟩, ⟨false, 1, .success⟩, ⟨false, 2, .success⟩, ⟨false, 3, .granted⟩] } } }
    (tx (.readUnit 3) 0x10C0 64)

/-- Table 4.10: the last read answered, the lane is WRITING with W0 presented; an error ends the command. -/
theorem test_read_answer :
    after (exec (.readUnitAnswer 5 (.success (lineOf []))) lastRead)
      (fun t => (t.lane.state, t.port.lane.map (fun q => (q.kind, q.address)))) =
      some (.writing, some (.writeUnit 0, 0x2000)) ∧
    after (exec (.readUnitAnswer 5 .error) lastRead)
      (fun t => (t.lane.state, (t.cr 1).outbound.map (fun c => (c.status, c.bytesDone)))) =
      some (.idle, [(.readFault, 0)]) := by decide +kernel

/-- The writes of the COPY of `moving` with all but one answered. -/
def lastWrite (f : SegmentFault) : State :=
  let s := moving .writing
  let g := planSegment s.wins 256 copyContext
  holding { s with lane := { s.lane with fault := f, segment := some { g with
    writes := [⟨false, 0, .success⟩, ⟨false, 1, .success⟩, ⟨false, 2, .granted⟩, ⟨false, 3, .success⟩] } } }
    (tx (.writeUnit 2) 0x2080 64)

/-- Table 4.10: with the segment fault WRITE the last acknowledgement ends the command WRITE_FAULT with the
bytes of the segments before; without it the command ends SUCCESS. -/
theorem test_write_answer :
    after (exec (.writeUnitAnswer 5 true) (lastWrite .write))
      (fun t => (t.cr 1).outbound.map (fun c => (c.status, c.bytesDone))) = some [(.writeFault, 0)] ∧
    after (exec (.writeUnitAnswer 5 true) (lastWrite .none))
      (fun t => (t.cr 1).outbound.map (fun c => (c.status, c.bytesDone))) = some [(.success, 256)] := by
  decide +kernel

/-- R18, R173: the write is at base + P × 16 with the phase in byte 7. -/
theorem test_completion_issue :
    after (exec (.completionWriteIssue 1) (withRecord.setCr 1 { withRecord.cr 1 with producer := 3 }))
      (fun t => t.port.completion.map (fun q => (q.address, q.data))) =
      some (some (0x30030, [0x0A, 0, 2, 0, 1, 0, 0, 1, 0, 0, 0, 0, 0, 1, 0, 0])) := by decide +kernel

/-- R18: the producer index wraps and the phase toggles. -/
theorem test_completion_ack :
    after (exec (.completionWriteAck 5) (writingRecord.setCr 1 { writingRecord.cr 1 with producer := 15 }))
      (fun t => ((t.cr 1).producer, (t.cr 1).phase, (t.cr 1).unsignalled, (t.cr 1).reserved)) =
      some (0, false, 1, 0) := by decide +kernel

/-- R19: the ring is FAULTED and the record discarded. -/
theorem test_completion_error :
    after (exec (.completionWriteError 5) writingRecord)
      (fun t => ((t.cr 1).state, (t.cr 1).discarded, (t.cr 1).producer, t.ctl.capture.kind, t.ctl.capture.ring)) =
      some (.faulted, 1, 0, .crWrite, 1) := by decide +kernel

/-- Table 8.7: a due message is issued; U 0, disarmed and timer absent after its success. -/
theorem test_message :
    after (exec (.messageWriteIssue 1) withMessage)
      (fun t => (t.port.completion.map (fun q => (q.address, q.data)), (t.cr 1).message)) =
      some (some (0x5000, [7, 0, 0, 0]), .inFlight) ∧
    after (exec (.messageWriteAck 5) (writingMessage.setCr 1 { writingMessage.cr 1 with message := .inFlight }))
      (fun t => ((t.cr 1).unsignalled, (t.cr 1).armed, (t.cr 1).timer, (t.cr 1).message)) =
      some (0, false, .absent, .none) := by decide +kernel

/-- Section 8.7: an error leaves the same state and reports MSG_WRITE. -/
theorem test_message_error :
    after (exec (.messageWriteError 5) writingMessage)
      (fun t => ((t.cr 1).state, (t.cr 1).armed, t.ctl.capture)) =
      some (.active, true, ⟨true, false, .msgWrite, 1, 0x5000⟩) := by decide +kernel

/-- SR0's QUERY in execution with its result write outstanding. -/
def resultWriting (e : EngineState) : State :=
  let s := inEngine ready e
  let s := s.setSr 0 { s.sr 0 with head := .admin (rec64 0x4E []) 0, fetchInFlight := false }
  holding { s with admin := .resultWrite (lineOf []) 0x4000 none } (tx .resultWrite 0x4000 64)

/-- Table 9.6: the success ends the QUERY; R155: an error ends it BUFFER_FAULT. -/
theorem test_result_answer :
    after (exec (.resultWriteAnswer 5 true) (resultWriting .running))
      (fun t => ((t.cr 0).outbound.map (fun c => c.status), t.adminBusy)) = some ([.ok], false) ∧
    after (exec (.resultWriteAnswer 5 false) (resultWriting .running))
      (fun t => (t.cr 0).outbound.map (fun c => c.status)) = some [.bufferFault] := by decide +kernel

/-- Two messages are owed and the first is in flight or not. -/
def owing (b : Bool) : State := { live with ctl := { live.ctl with
  owed := 2, faultWrite := b, faultVector := ⟨true, 0x6000, 9⟩ } }

/-- R170: one at a time. -/
theorem test_fault_message :
    after (exec .faultMessageIssue (owing false)) (fun t => t.port.control.map (fun q => (q.address, q.data))) =
      some (some (0x6000, [9, 0, 0, 0])) ∧
    after (exec (.faultMessageAnswer 5 false) (holding (owing true) (tx .faultMessage 0x6000 4)))
      (fun t => (t.ctl.owed, t.ctl.faultWrite)) = some (1, false) := by decide +kernel

/-- A transaction issued at tick 0 with the tick at n. -/
def aged (n : Nat) : State :=
  let s := fetching live 2
  { s with time := ⟨BitVec.ofNat 32 n, 0, []⟩ }

/-- R88: the default timeout of 1000 ticks. -/
theorem test_timeout :
    after (exec (.transactionTimeout 5) (aged 999)) (fun t => decide (t = aged 999)) = some true ∧
    after (exec (.transactionTimeout 5) (aged 1000))
      (fun t => (t.port.outstanding, t.port.abandoned, (t.sr 2).state)) = some ([], [5], .faulted) := by
  decide +kernel

/-- R88: a late response frees the identifier; a response nobody waits for is a fault. -/
theorem test_late_response :
    after (exec (.lateResponse 5) { live with port := { live.port with abandoned := [3, 5] } })
      (fun t => t.port.abandoned) = some [3] ∧
    stop (exec (.lateResponse 5) live) = some .spuriousResponse := by decide +kernel

/-- An answer of another kind than the outstanding transaction's is a fault. -/
theorem test_mismatched_answer :
    stop (exec (.messageWriteAck 5) writingRecord) = some .answerMismatch := by decide +kernel

/-- R101: with divider 199 the counter advances in the period in which the prescaler is 199, and wraps. -/
theorem test_clock :
    after (exec .prescalerCount { live with time := ⟨0xFFFFFFFF, 198, []⟩ }) (fun t => t.time) =
      some ⟨0xFFFFFFFF, 199, []⟩ ∧
    after (exec .tickAdvance { live with time := ⟨0xFFFFFFFF, 199, []⟩ }) (fun t => t.time) =
      some ⟨0, 0, []⟩ := by decide +kernel

/-- R106: an expiry with ABORT_ON_MISS settles the head DEADLINE_MISSED, which drains; without, LATE. -/
theorem test_expiry :
    after (exec (.deadlineExpiry 2 .head) (watched true .head))
      (fun t => ((t.sr 2).head, (t.cr 1).outbound.map (fun c => c.status))) =
      some (.empty, [.deadlineMissed]) ∧
    after (exec (.deadlineExpiry 2 .active) (watched false .active))
      (fun t => (t.disp.active.map (fun c => c.late), t.time.watch)) = some (some true, []) := by
  decide +kernel

/-- Table 8.7: started at 100 with a coalesce time of 40, the timer elapses at 140. -/
theorem test_coalesce_timer :
    after (exec (.coalesceTimerElapse 1) { live.setCr 1 { live.cr 1 with
        coalesceTime := 40, unsignalled := 2, timer := .running 100 } with time := ⟨140, 0, []⟩ })
      (fun t => (t.cr 1).timer.isElapsed) = some true ∧
    after (exec (.coalesceTimerElapse 1) { live.setCr 1 { live.cr 1 with
        coalesceTime := 40, unsignalled := 2, timer := .running 100 } with time := ⟨139, 0, []⟩ })
      (fun t => (t.cr 1).timer.isElapsed) = some false := by decide +kernel

/-- TRIG2 of Table 7.4: RISING with filter length 2. -/
def trig2 (run : Nat) (level : Bool) (credits : Nat) : State :=
  live.setTrig 2 ⟨.rising, 2, level, run, credits, false⟩

/-- Table 7.4: the glitch of periods 1 and 2. -/
theorem test_trigger_glitch :
    after (exec (.triggerSample 2 true) (trig2 0 false 0)) (fun t => t.trig 2) =
      some ⟨.rising, 2, false, 1, 0, false⟩ ∧
    after (exec (.triggerSample 2 false) (trig2 1 false 0)) (fun t => t.trig 2) =
      some ⟨.rising, 2, false, 0, 0, false⟩ := by decide +kernel

/-- Table 7.4: the accepted changes of periods 5 and 12. -/
theorem test_trigger_change :
    after (exec (.triggerSample 2 true) (trig2 2 false 0)) (fun t => t.trig 2) =
      some ⟨.rising, 2, true, 0, 1, false⟩ ∧
    after (exec (.triggerChangeAccepted 2) (trig2 2 true 1)) (fun t => t.trig 2) =
      some ⟨.rising, 2, false, 0, 1, false⟩ := by decide +kernel

/-- R38: the check value of the CRC. -/
theorem test_crc_check_value :
    crcFinal (crcRun 0xFFFFFFFF#32 ((List.range 9).map (fun i => BitVec.ofNat 8 (0x31 + i)))) =
      0xE3069283#32 := by decide +kernel

/-- The windows of Table 5.2. -/
def windows52 : Vector Window 8 :=
  ((Vector.replicate 8 Window.cleared).set 1 ⟨true, false, 0x10000, 0x300, 0x80000, 0⟩).set 3
    ⟨true, false, 0x10200, 0x400, 0x90000, 0⟩

/-- The COPY of section 5.8 with a number of bytes done. -/
def copy58 (done : Nat) : Context :=
  { copyContext with
    fields := decodeFields (rec64 0x01 [(12, 4, 1536), (16, 8, 0xFF80), (24, 8, 0x40000)])
    total := 1536
    bytesDone := done }

/-- Table 5.3: lengths, mappings and first read addresses of segments 1, 2 and 5. -/
theorem test_segments :
    ([0, 128, 896].map fun d => (segmentLength windows52 256 (copy58 d),
        (mappingAt windows52 (copy58 d).sourceAddress).address (copy58 d).sourceAddress)) =
      [(128, 0xFF80), (256, 0x80000), (256, 0x90100)] := by decide +kernel

/-! ## Administrative rows -/

/-- The status and result that CR0's outbound list holds after a row. -/
def ends (i : Instr) (s : State) : Option (List (Status × Word32)) :=
  after (exec i s) (fun t => (t.cr 0).outbound.map (fun c => (c.status, c.result)))

/-- Records of the commands, with the parameters at the offsets of Table 11.10. -/
def createCrRec : Line := rec64 0x40 [(12, 1, 2), (13, 1, 4), (14, 1, 3), (16, 8, 0x40000), (24, 2, 40),
  (26, 1, 1), (28, 8, 0x5004), (36, 4, 7)]
def createSrRec : Line := rec64 0x42 [(12, 1, 3), (13, 1, 4), (14, 1, 5), (15, 1, 1), (16, 8, 0x50000), (24, 1, 1)]
def setLevelRec : Line := rec64 0x44 [(12, 1, 2), (14, 1, 7)]
def setWindowRec : Line := rec64 0x4A [(12, 1, 1), (13, 1, 3), (16, 8, 0x10000), (24, 8, 0x80000), (32, 8, 0x300)]
def setTriggerRec : Line := rec64 0x4C [(12, 1, 2), (13, 1, 1), (14, 1, 2)]
def setEngineRec : Line := rec64 0x4D [(12, 2, 512), (14, 2, 5), (16, 2, 1), (18, 1, 2), (20, 8, 0), (28, 4, 0),
  (32, 8, 0x7000), (40, 4, 8)]
def queryRec : Line := rec64 0x4E [(12, 1, 0), (13, 1, 2), (16, 8, 0x4000)]
def identifyRec : Line := rec64 0x4F [(16, 8, 0x4000)]

theorem test_admin_unknown : ends (.adminUnknown (rec64 0x50 [])) ready = some [(.unknown, 0)] := by
  decide +kernel

theorem test_create_cr :
    after (exec (.createCr createCrRec) ready) (fun t => ((t.cr 2).state, (t.cr 2).base, (t.cr 2).threshold,
      (t.cr 2).coalesceTime, (t.cr 2).vector, (t.cr 2).phase)) =
      some (.active, 0x40000, 3, 40, ⟨true, 0x5004, 7⟩, true) ∧
    ends (.createCr (rec64 0x40 [(12, 1, 1), (13, 1, 4), (14, 1, 3), (16, 8, 0x40000)])) ready =
      some [(.ringExists, 0)] := by decide +kernel

/-- R141: SR2 is bound to CR1. -/
theorem test_delete_cr : ends (.deleteCr (rec64 0x41 [(12, 1, 1)])) ready = some [(.inUse, 0)] ∧
    ends (.deleteCr (rec64 0x41 [(12, 1, 2)])) ready = some [(.noRing, 0)] := by decide +kernel

/-- Table 9.6: CREATE_SR on an absent completion ring ends NO_RING. -/
theorem test_create_sr :
    after (exec (.createSr createSrRec) ready) (fun t => ((t.sr 3).state, (t.sr 3).base, (t.sr 3).level,
      (t.sr 3).bound)) = some (.paused, 0x50000, 5, 1) ∧
    ends (.createSr (rec64 0x42 [(12, 1, 3), (13, 1, 4), (15, 1, 2)])) ready = some [(.noRing, 0)] := by
  decide +kernel

theorem test_delete_sr : ends (.deleteSr (rec64 0x43 [(12, 1, 2)])) ready = some [(.wrongState, 0)] ∧
    after (exec (.deleteSr (rec64 0x43 [(12, 1, 2)])) (ready.setSr 2 { ready.sr 2 with state := .paused }))
      (fun t => (t.sr 2).state) = some .absent := by decide +kernel

theorem test_set_level :
    after (exec (.setLevel setLevelRec) ready) (fun t => ((t.sr 2).level, (t.sr 2).pendingLevel)) =
      some (7, none) ∧
    after (exec (.setLevel setLevelRec) (ready.setSr 2 { ready.sr 2 with carry := .opened none }))
      (fun t => ((t.sr 2).level, (t.sr 2).pendingLevel)) = some (3, some 7) := by decide +kernel

/-- Table 9.2: the result is the bitmap of the rings that changed. -/
theorem test_pause_and_resume :
    ends (.pauseSr (rec64 0x45 [(12, 2, 4)])) ready = some [(.ok, 4)] ∧
    ends (.resumeSr (rec64 0x46 [(12, 2, 4)])) ready = some [(.ok, 0)] := by decide +kernel

/-- R148: three posted records are skipped and counted. -/
theorem test_abort_sr :
    ends (.abortSr (rec64 0x47 [(12, 1, 2)])) (ready.setSr 2 { ready.sr 2 with producer := 1, consumer := 6 }) =
      some [(.ok, 3)] ∧
    ends (.abortSr (rec64 0x47 [(12, 1, 4)])) ready = some [(.noRing, 0)] := by decide +kernel

theorem test_reset_sr :
    ends (.resetSr (rec64 0x48 [(12, 1, 2)])) (ready.setSr 2 { ready.sr 2 with
      state := .faulted, producer := 1, consumer := 6 }) = some [(.ok, 3)] ∧
    ends (.resetSr (rec64 0x48 [(12, 1, 2)])) ready = some [(.wrongState, 0)] := by decide +kernel

theorem test_reset_cr :
    ends (.resetCr (rec64 0x49 [(12, 1, 1)])) (ready.setCr 1 { ready.cr 1 with
      state := .faulted, discarded := 7 }) = some [(.ok, 7)] ∧
    after (exec (.resetCr (rec64 0x49 [(12, 1, 1)])) (ready.setCr 1 { ready.cr 1 with
      state := .faulted, producer := 5, phase := false }))
      (fun t => ((t.cr 1).state, (t.cr 1).producer, (t.cr 1).phase)) = some (.active, 0, true) := by
  decide +kernel

theorem test_windows :
    after (exec (.setWindow setWindowRec) ready) (fun t => t.win 1) =
      some ⟨true, true, 0x10000, 0x300, 0x80000, 0⟩ ∧
    ends (.clearWindow (rec64 0x4B [(12, 1, 1)])) (ready.setWin 1 ⟨true, false, 0x10000, 0x300, 0x80000, 512⟩) =
      some [(.ok, 512)] := by decide +kernel

theorem test_set_trigger :
    after (exec (.setTrigger setTriggerRec) (ready.setTrig 2 ⟨.both, 0, true, 0, 9, true⟩)) (fun t => t.trig 2) =
      some ⟨.rising, 2, true, 0, 0, false⟩ := by decide +kernel

theorem test_set_engine :
    after (exec (.setEngine setEngineRec) ready) (fun t => (t.ctl.segmentSize, t.ctl.responseTimeout,
      t.ctl.tickDivider, t.ctl.faultVector.enabled, t.ctl.crVector)) =
      some (512, 5, 1, false, ⟨true, 0x7000, 8⟩) ∧
    ends (.setEngine (rec64 0x4D [(12, 2, 100)])) ready = some [(.badField, 0)] := by decide +kernel

/-- Table 11.11: a QUERY of SR2 begins with kind 0, id 2, state and log2 size. -/
theorem test_query :
    after (exec (.query queryRec) ready) (fun t => (t.port.admin.map (fun q => (q.address, q.data.take 8)), t.adminBusy)) =
      some (some (0x4000, [0, 2, 0, 0, 1, 3, 3, 0]), true) := by decide +kernel

/-- Table 11.12: the capability record begins with the family code and the revision. -/
theorem test_identify :
    after (exec (.identify identifyRec) ready) (fun t => t.port.admin.map (fun q => q.data.take 4)) =
      some (some [0x61, 0x2A, 0x03, 0x01]) := by decide +kernel

/-- R56: a push marks the context it puts on the stack PREEMPTED. -/
theorem test_push_sets_preempted :
    (push live copyContext).disp.stack.map (fun c => c.preempted) = [true] := by decide +kernel

/-! ## Witnesses: states and operands that meet the hypotheses of the statements -/

theorem witness_StepRunsFrontCommand :
    ({ live with pending := [.faultClear, .tickAdvance] }).pending = .faultClear :: [.tickAdvance] := rfl

/-- Asked by SRESET or by ENABLE 0; ignored in RESETTING, at once, with a drain; bits that ask for none; in
RESETTING an answer that is not the last one, a last one, and a timeout reached exactly. -/
theorem witness_SoftResetOutcomes :
    (live.ctl.enable = true ∧ live.ctl.engine ≠ .resetting ∧ live.port.outstanding = []) ∧
    (ready.ctl.engine ≠ .resetting ∧ ready.port.outstanding ≠ []) ∧
    State.reset.ctl.enable = false ∧
    (let s := inEngine (aged 1000) .resetting
     let t := tx (.recordFetch 2) 0x20000 64
     s.awaits t ∧ s.ctl.engine = .resetting ∧ without s 5 = [] ∧ s.ctl.responseTimeout ≠ 0 ∧
      s.ctl.responseTimeout ≤ (s.time.tick - t.issued).toNat) ∧
    (let s := inEngine (presenting 2) .resetting
     s.awaits ⟨1, 0, ⟨.recordFetch 2, 0, 64, []⟩⟩ ∧ without s 1 ≠ []) := by
  unfold State.awaits
  decide +kernel

/-- An absent ring, the first index out of range, the last one in range. -/
theorem witness_TailUpdateOutcomes :
    decodes live ∧ (live.sr 3).state = .absent ∧
    ((live.sr 2).state ≠ .absent ∧ 2 ^ (live.sr 2).log2 ≤ (8 : BitVec 12).toNat) ∧
    ((live.sr 2).state ≠ .absent ∧ (7 : BitVec 12).toNat < 2 ^ (live.sr 2).log2) := by
  unfold decodes
  decide +kernel

/-- CR1 with producer 5 and consumer 14 of 16. -/
def wrapped : State := live.setCr 1 { live.cr 1 with producer := 5, consumer := 14 }

/-- Ring 8, an absent ring, an index of the size and one past the producer, and both ends of the range. -/
theorem witness_HeadUpdateOutcomes :
    decodes wrapped ∧ 8 ≤ (8 : Fin 16).val ∧ (wrapped.cr 2).state = .absent ∧
    ((wrapped.cr 1).state ≠ .absent ∧ 2 ^ (wrapped.cr 1).log2 ≤ (16 : BitVec 12).toNat) ∧
    apart 16 (wrapped.cr 1).producer (wrapped.cr 1).consumer <
      apart 16 (6 : BitVec 12).toNat (wrapped.cr 1).consumer ∧
    apart 16 (5 : BitVec 12).toNat (wrapped.cr 1).consumer ≤
      apart 16 (wrapped.cr 1).producer (wrapped.cr 1).consumer ∧
    apart 16 (14 : BitVec 12).toNat (wrapped.cr 1).consumer ≤
      apart 16 (wrapped.cr 1).producer (wrapped.cr 1).consumer := by
  unfold decodes
  decide +kernel

theorem witness_NotifyIgnoredOffAndResetting :
    State.reset.ctl.engine = .off ∧ (inEngine live .resetting).ctl.engine = .resetting := by decide +kernel

/-- Table 10.6: SR0 invalid, CR0 invalid, both valid; rings of 2 records and one that ends at 2^48; ENABLE stored 1,
and RESETTING. -/
theorem witness_EnableOutcomes :
    ((example106 0x104020).ctl.engine = .off ∧ (example106 0x104020).ctl.enable = false) ∧
    ¬ srChecks State.reset.ctl ∧
    (srChecks (example106 0x104020).ctl ∧ ¬ crChecks (example106 0x104020).ctl) ∧
    (srChecks (example106 0xFFFFFFFFFC00).ctl ∧ crChecks (example106 0xFFFFFFFFFC00).ctl) ∧
    live.ctl.enable = true ∧ (inEngine live .resetting).ctl.engine = .resetting := by
  unfold srChecks crChecks
  decide +kernel

theorem witness_PauseActsByEngineState :
    live.ctl.engine = .running ∧ (inEngine live .pausing).ctl.engine = .pausing ∧
    (inEngine live .paused).ctl.engine = .paused ∧ (inEngine live .halted).ctl.engine = .halted ∧
    State.reset.ctl.engine = .off ∧ (inEngine live .resetting).ctl.engine = .resetting := by decide +kernel

theorem witness_AdminRegistersStoredInOff :
    ((0x1C, 0x0000FFFF#32) : Nat × Word32) ∈ [((0x10, 0xFFFFFFFF#32) : Nat × Word32), (0x14, 0x0000FFFF#32),
      (0x18, 0xFFFFFFFF#32), (0x1C, 0x0000FFFF#32), (0x20, 0x00000F0F#32)] ∧
    State.reset.ctl.engine = .off ∧ live.ctl.engine ≠ .off := by decide +kernel

/-- The last unassigned offset, a width and an offset of another shape, the first offset past the window. -/
theorem witness_RegisterAccessesDecode :
    0x3C ∈ [0x00, 0x08, 0x28, 0x2C, 0x30, 0x34, 0x38, 0x3C] ∧ 0x3C ∉ [0x00, 0x04, 0x08, 0x10, 0x14, 0x18, 0x1C, 0x20, 0x24, 0x28, 0x2C] ∧ (8 ≠ 4 ∨ 0x3C % 4 ≠ 0) ∧
    (4 ≠ 4 ∨ 0x3E % 4 ≠ 0) ∧ 0x40 ≤ 0x40 := by decide

/-- SR2 with one record posted across the end of the ring, and CR1 with one free position left. -/
def postedOne : State :=
  let s := live.setSr 2 { live.sr 2 with producer := 0, consumer := 7 }
  s.setCr 1 { s.cr 1 with producer := 3, consumer := 0, reserved := 11 }

/-- SR2 and SR3 both ready to be admitted, and ring x the last taker of their completion ring. -/
def sharing (x : Fin 16) : State :=
  let s := postedOne.setSr 3 (postedOne.sr 2)
  s.setCr 1 { s.cr 1 with lastTaker := x }

/-- A ring alone and with another one, in its turn and not, SR0, and one that is not eligible; a fetch to present
with SR0 before SR2 after SR15 was last, one already presented, and none waiting. -/
theorem witness_AdmissionBegins :
    (postedOne.eligible 2 = true ∧ (sharing 15).eligible 2 = true ∧ (sharing 15).eligible 3 = true ∧
      (∀ x, x ≠ 0 → ((sharing 15).sr x).bound = ((sharing 15).sr 2).bound → (sharing 15).eligible x = true →
        searchDistance ((sharing 15).cr ((sharing 15).sr 2).bound).lastTaker 2 ≤
          searchDistance ((sharing 15).cr ((sharing 15).sr 2).bound).lastTaker x)) ∧
    ((sharing 2).eligible 2 = true ∧ (sharing 2).eligible 3 = true ∧ ((sharing 2).sr 3).bound = ((sharing 2).sr 2).bound ∧
      searchDistance ((sharing 2).cr ((sharing 2).sr 2).bound).lastTaker 3 <
        searchDistance ((sharing 2).cr ((sharing 2).sr 2).bound).lastTaker 2) ∧
    (live.setSr 0 { live.sr 0 with producer := 1 }).eligible 0 = true ∧ live.eligible 2 = false ∧
    (let s := (live.setSr 0 { live.sr 0 with fetchQueued := true }).setSr 2 { live.sr 2 with fetchQueued := true }
     s.port.ringFetch = none ∧ (s.sr 0).fetchQueued = true ∧ (∀ x, (s.sr x).fetchQueued = true →
      tableDistance 16 s.fetchLast.val (0 : Fin 16).val ≤ tableDistance 16 s.fetchLast.val x.val)) ∧
    (presenting 0).port.ringFetch ≠ none ∧ ∀ n, (live.sr n).fetchQueued = false := by decide +kernel

/-- Records that fail each check of Table 2.4 first, in its order, with the reason each gives; the first also
meets later checks, TRIG_WAIT is refused on a continuation alone. A record that passes is to execute. -/
theorem witness_ValidationGivesFirstReason :
    (∀ x ∈ ([(rec64 0x07 [(1, 1, 8)], false, .unknownOpcode), (rec64 0x01 [(1, 1, 8)], false, .reservedSet),
        (rec64 0x01 [(12, 4, 1), (32, 4, 1)], false, .reservedSet), (rec64 0x04 [(12, 4, 8)], false, .flagCombination),
        (rec64 0x01 [(2, 1, 0x80)], true, .triggerOnContinuation), (rec64 0x03 [], false, .zeroLength),
        (rec64 0x02 [(36, 4, 4), (40, 2, 8), (42, 2, 2)], false, .stride),
        (rec64 0x03 [(12, 4, 8), (24, 8, 2 ^ 48 - 7)], false, .addressRange),
        (rec64 0x03 [(2, 1, 0x08), (12, 4, 4097)], false, .atomicTooLong)] : List (Line × Bool × Reason)),
      validate x.1 x.2.1 = .invalid x.2.2) ∧
    opcodeOf (decodeFields (rec64 0x07 [])).opcode = none ∧ 6 < (7 : Byte).toNat ∧
    opcodeOf (decodeFields copyRecord).opcode = some .copy ∧ validate copyRecord false = .execute .copy ∧
    validate (rec64 0x03 [(12, 4, 8), (24, 8, 2 ^ 48 - 8)]) false = .execute .fill := by decide +kernel

theorem witness_TransferRecordAdmitted :
    (fetching live 2).awaits (tx (.recordFetch 2) 0x20000 64) ∧ (2 : Fin 16) ≠ 0 ∧
      (fetching live 2).ctl.engine ≠ .resetting := by
  unfold State.awaits
  decide +kernel

/-- A ring that fails while it is aborted and otherwise, its noted end state kept in the Admin Unit; SR0 in a
working and in a halted engine, without and with a valid capture. -/
theorem witness_FetchFailureOutcomes :
    ((fetching live 15).awaits (tx (.recordFetch 15) 0 64) ∧ (15 : Fin 16) ≠ 0 ∧
      (fetching live 15).ctl.engine ≠ .resetting) ∧
    (let s := fetching { live.setSr 2 { live.sr 2 with state := .aborting } with admin := .abortMarkers 2 false } 2
     s.awaits (tx (.recordFetch 2) 0x20000 64) ∧ (s.sr 2).state = .aborting ∧ s.admin = .abortMarkers 2 false) ∧
    (ready.awaits adminTx ∧ adminTx.request.kind = .recordFetch 0 ∧ ready.works = true ∧
      ready.ctl.capture.valid = false) ∧
    ((inEngine ready .halted).awaits adminTx ∧ (inEngine ready .halted).works = false) ∧
    ((reportFault ready .srFetch 2 0).awaits adminTx ∧
      (reportFault ready .srFetch 2 0).ctl.capture.valid = true) := by
  unfold State.awaits
  decide +kernel

theorem witness_AdminRowIsItsFetch :
    (ready.awaits adminTx ∧ ready.port.adminFetch = some adminTx) ∧
    ((inEngine ready .halted).awaits adminTx ∧ adminTx.request.kind = .recordFetch 0 ∧
      (inEngine ready .halted).ctl.engine = .halted) := by
  unfold State.awaits
  decide +kernel

/-- The last grant that is possible, and each condition that forbids one; two requesters in turn. -/
theorem witness_GrantIssuesOneRequest :
    ((presenting 15).port.outstanding.length < 16 ∧ (∀ t ∈ (presenting 15).port.outstanding, t.id ≠ 20) ∧
      20 ∉ (presenting 15).port.abandoned ∧ (presenting 15).ctl.engine ≠ .resetting ∧
      (presenting 15).port.presented .ringFetch = some ⟨.recordFetch 2, 0x20000, 64, []⟩ ∧
      ∀ x, ((presenting 15).port.presented x).isSome = true →
        tableDistance 5 (requesterPlace (presenting 15).port.pointer) (requesterPlace .ringFetch) ≤
          tableDistance 5 (requesterPlace (presenting 15).port.pointer) (requesterPlace x)) ∧
    16 ≤ (presenting 16).port.outstanding.length ∧
    (∃ t ∈ (presenting 15).port.outstanding, t.id = 14) ∧ 31 ∈ (presenting 15).port.abandoned ∧
    (inEngine (presenting 15) .resetting).ctl.engine = .resetting ∧
    (∀ q, live.port.presented q = none) ∧
    ((presenting 0).port.presented .ringFetch).isSome = true ∧ Requester.ringFetch ≠ (presenting 0).port.pointer := by
  refine ⟨⟨by decide +kernel, by decide +kernel, by decide +kernel, by decide +kernel, by decide +kernel,
    fun x => by cases x <;> decide +kernel⟩, by decide +kernel, by decide +kernel, by decide +kernel, by decide +kernel,
    fun q => by cases q <;> rfl, by decide +kernel⟩

/-- The timeout reached exactly, one tick short of it, and switched off with T = 0; a late response. -/
theorem witness_TimeoutAbandonsIdentifier :
    ((presenting 0).port.find 31 = none ∧ 31 ∈ (presenting 0).port.abandoned) ∧
    ((aged 1000).awaits (tx (.recordFetch 2) 0x20000 64) ∧ (aged 1000).ctl.responseTimeout ≠ 0 ∧
      (aged 1000).ctl.responseTimeout ≤ ((aged 1000).time.tick - 0).toNat ∧
      (aged 1000).ctl.engine ≠ .resetting) ∧
    ((aged 999).awaits (tx (.recordFetch 2) 0x20000 64) ∧
      ((aged 999).time.tick - 0).toNat < (aged 999).ctl.responseTimeout) ∧
    (let s := { aged 1000 with ctl := { live.ctl with responseTimeout := 0 } }
     s.awaits (tx (.recordFetch 2) 0x20000 64) ∧ s.ctl.responseTimeout = 0) := by
  unfold State.awaits
  decide +kernel

/-- The segment of `lastRead`. -/
def readSegment : Segment := { planSegment live.wins 256 copyContext with
  reads := [⟨false, 0, .success⟩, ⟨false, 1, .success⟩, ⟨false, 2, .success⟩, ⟨false, 3, .granted⟩] }

/-- The last unit's bytes in a buffer; without a fault, with one (the answer is then absorbed), and of the second
input of a COMPARE. -/
theorem witness_ReadAnswerRecorded :
    448 + (List.replicate 64 (1 : Byte)).length ≤ emptyBuffer.length ∧
    (lastRead.awaits (tx (.readUnit 3) 0x10C0 64) ∧ lastRead.ctl.engine ≠ .resetting ∧
      lastRead.lane.segment = some readSegment ∧ readSegment.reads[3]? = some ⟨false, 3, .granted⟩ ∧
      lastRead.lane.fault = .none) ∧
    (let s := { lastRead with lane := { lastRead.lane with fault := .read } }
     s.awaits (tx (.readUnit 3) 0x10C0 64) ∧ s.lane.segment = some readSegment ∧ s.lane.fault ≠ .none) ∧
    (let c := { copyContext with op := .compare }
     let g := { planSegment windows52 256 { c with fields := decodeFields (rec64 0x05 [(12, 4, 256), (16, 8, 0x1000), (24, 8, 0x10000)]) } with
      reads := [⟨false, 0, .success⟩, ⟨true, 0, .granted⟩] }
     let s := holding { live with wins := windows52, disp := { live.disp with active := some c }, lane := { Lane.cleared with
      state := .reading, segment := some g } } (tx (.readUnit 1) 0x80000 64)
     s.awaits (tx (.readUnit 1) 0x80000 64) ∧ s.lane.segment = some g ∧ g.reads[1]? = some ⟨true, 0, .granted⟩ ∧
      g.map2 = .window 1 0x10000 0x80000) := by
  unfold State.awaits
  decide +kernel

theorem witness_WriteAnswerRecorded :
    (lastWrite .none).awaits (tx (.writeUnit 2) 0x2080 64) ∧ (lastWrite .none).ctl.engine ≠ .resetting ∧
    (lastWrite .none).lane.segment.isSome = true := by
  unfold State.awaits
  decide +kernel

/-- A COMPARE whose inputs differ at the first byte. -/
def comparing : Context := { copyContext with op := .compare, bytesDone := 256 }

/-- A COPY2D of two rows of 100 bytes. -/
def twoD : Context := { copyContext with
  op := .copy2d
  fields := decodeFields (rec64 0x02 [(16, 8, 0x1000), (24, 8, 0x2000), (32, 4, 128), (36, 4, 256), (40, 2, 100), (42, 2, 2)])
  total := 200 }

/-- Both faults; a difference, full length, a request before full length, none of them; a COPY2D segment that
ends its row and one that does not. -/
theorem witness_BoundaryOutcomes :
    (comparing.op = .compare ∧ copyContext.op ≠ .compare) ∧
    (segmentDifference comparing (planSegment live.wins 256 { comparing with bytesDone := 0 })
      { Lane.cleared with buffer1 := putBytes emptyBuffer 0 [1] } = some 0) ∧
    (segmentDifference { copyContext with bytesDone := 256 } readSegment Lane.cleared = none ∧
      ({ copyContext with bytesDone := 256 }).bytesDone = copyContext.total) ∧
    (segmentDifference { copyContext with bytesDone := 64, request := some .aborted } readSegment
      Lane.cleared = none ∧ 64 ≠ copyContext.total ∧ copyContext.request = none) ∧
    ((lastWrite .read).lane.fault = .read ∧ (lastWrite .write).lane.fault = .write ∧ lastRead.lane.fault = .none) ∧
    (twoD.op = .copy2d ∧ (planSegment live.wins 64 twoD).length = 64 ∧ twoD.rowOffset + 64 ≠ twoD.fields.rowLength ∧
      (planSegment live.wins 64 { twoD with bytesDone := 64, rowOffset := 64 }).length = 36 ∧
      64 + 36 = twoD.fields.rowLength) := by decide +kernel

/-- The bound ring ACTIVE and FAULTED, the head slot empty and not. -/
theorem witness_EndedCommandIsReported :
    (let s := moving .reading
     (s.cr (s.sr copyContext.ring).bound).state = .active ∧ (s.sr copyContext.ring).head = .empty) ∧
    (let s := (moving .reading).setCr 1 { live.cr 1 with state := .faulted }
     (s.cr (s.sr copyContext.ring).bound).state = .faulted) ∧
    (chained.sr chainContext.ring).head ≠ .empty := by decide +kernel

/-- A COPY segment of one window, its COMPARE and its FILL; with NO_SUBST too; the last byte of each segment. -/
theorem witness_UnitsMoveSegmentBytes :
    (255 < (planSegment windows52 256 (copy58 128)).length ∧ (copy58 128).op ≠ .fill ∧ (copy58 128).op ≠ .mark ∧
      (copy58 128).fields.flags.noSubst = false) ∧
    (35 < (planSegment live.wins 64 { twoD with bytesDone := 64, rowOffset := 64 }).length) ∧
    (let c := { copy58 0 with op := .compare, fields := decodeFields (rec64 0x05 [(2, 1, 0x20), (12, 4, 1536)]) }
     255 < (planSegment windows52 256 c).length ∧ c.op = .compare ∧ c.fields.flags.noSubst = true) ∧
    (planSegment windows52 256 { copy58 0 with op := .fill }).writes.length = 4 := by decide +kernel

/-- Both ends of READING and of WRITING, a unit to present in each, and nothing left to present. -/
theorem witness_SegmentRunsThroughItsUnits :
    ((moving .reading).disp.active = some copyContext ∧
      (moving .reading).lane.segment = some (planSegment live.wins 256 copyContext) ∧
      (moving .reading).lane.fault = .none ∧ (moving .reading).lane.state = .reading ∧
      (planSegment live.wins 256 copyContext).reads[0]? = some ⟨false, 0, .waiting⟩ ∧
      (planSegment live.wins 256 copyContext).writes[0]? = some ⟨false, 0, .waiting⟩) ∧
    ((lastRead.lane.segment = some readSegment ∧ lastRead.lane.state = .reading ∧
      (∀ u ∈ readSegment.reads, u.state ≠ .waiting)) ∧
      (∃ u ∈ readSegment.reads, u.state = .presented ∨ u.state = .granted)) ∧
    ((moving .writing).lane.state = .writing ∧ (lastWrite .write).lane.fault ≠ .none) ∧
    (∀ u ∈ [(⟨false, 0, .success⟩ : TransferUnit), ⟨false, 1, .error⟩], u.state ≠ .presented ∧ u.state ≠ .granted) ∧
    (∃ u ∈ [(⟨false, 0, .presented⟩ : TransferUnit)], u.state = .presented ∨ u.state = .granted) := by
  decide +kernel

/-! ### The Dispatcher -/

/-- Rings 2, 3 and 9 with heads to execute: 3 and 9 at level 2, 2 at level 3; the chain of ring x of level 2 may
be open. -/
def contested (x : Option (Fin 16)) : State :=
  let put (s : State) (n : Fin 16) (l : Fin 8) (c : ChainCarry) : State := s.setSr n { live.sr 2 with
    level := l, head := .transfer (headCopy .copy), carry := c }
  put (put (put live 2 3 .closed) 3 2 (if x = some 3 then .opened none else .closed)) 9 2
    (if x = some 9 then .opened none else .closed)

/-- R51, R52: the pointer of level 2 names SR1, so SR3 is best; SR9 where its chain is open, which excludes SR3;
with the pointer at SR3 SR9 is best. A head that waits for a credit is none. -/
theorem witness_BestCandidateIsChosen :
    ((contested none).best = some 3 ∧ ((contested none).sr 3).carry = .closed ∧
      (contested none).candidate 9 = true ∧ ((contested none).sr 9).level = ((contested none).sr 3).level) ∧
    ((contested (some 9)).best = some 9 ∧ ((contested (some 9)).sr 9).carry ≠ .closed ∧
      (contested (some 9)).candidate 3 = false) ∧
    (let s := contested none
     ({ s with disp := { s.disp with pointers := s.disp.pointers.set 2 3 } }).best = some 9) ∧
    (live.best = none ∧ live.candidate 2 = false) ∧
    (let f := decodeFields (rec64 0x01 [(1, 1, 4), (2, 1, 0x80), (12, 4, 1)])
     f.flags.trigWait = true ∧
      (live.setSr 2 { live.sr 2 with head := .transfer { headCopy .copy with fields := f } }).candidate 2 = false) := by
  decide +kernel

theorem witness_DispatchFormsContext :
    ((contested none).sr 3).head = .transfer (headCopy .copy) ∧ (headCopy .copy).settlement = .execute .copy := by
  decide +kernel

/-- A state with a context on the stack. -/
def stacked (s : State) (l : Fin 8) : State := { s with disp := { s.disp with stack := [below l] } }

/-- (a) taken and not; (c) with nothing, with a candidate that outranks the top, with one that does not and with
none; a MARK and a COPY; (b) in every engine state, with NO_PREEMPT, with a better and no better candidate. -/
theorem witness_DecisionsFollowTables :
    ((contested none).ctl.engine = .running ∧ (contested none).disp.active = none ∧ (contested none).best ≠ none) ∧
    (live.best = none ∧ live.disp.stack = []) ∧
    ((stacked (contested none) 6).best = some 3 ∧
      ∀ a ∈ (stacked (contested none) 6).disp.stack.head?, ((stacked (contested none) 6).sr 3).level < a.level) ∧
    ((stacked (contested none) 1).disp.stack = below 1 :: [] ∧
      ∀ n, (stacked (contested none) 1).best = some n → (below 1).level ≤ ((stacked (contested none) 1).sr n).level) ∧
    (∀ n, (stacked live 1).best = some n → (below 1).level ≤ ((stacked live 1).sr n).level) ∧
    ((moving .reading).disp.active = some copyContext ∧ copyContext.op ≠ .mark ∧
      ({ copyContext with op := .mark }).op = .mark) ∧
    (live.ctl.engine = .running ∧ (inEngine live .pausing).ctl.engine = .pausing ∧
      (inEngine live .halted).ctl.engine = .halted) ∧
    (copyContext.fields.flags.noPreempt = false ∧ (decodeFields (rec64 0x01 [(2, 1, 0x08)])).flags.noPreempt = true ∧
      (contested none).best = some 3 ∧ ((contested none).sr 3).level < copyContext.level ∧
      ∀ n, (contested none).best = some n → (below 2).level ≤ ((contested none).sr n).level) := by decide +kernel

/-! ### Chains -/

/-- No member; the last member; CHAIN with a successor posted, with none, and after a failure with a continuation to
skip and without one. A settled head that drains, waits for the marker, and waits for a working engine; a pending
level with and without a chain in progress. -/
theorem witness_ChainRulesAndDrain :
    (copyContext.continuation = false ∧ copyContext.fields.flags.chain = false) ∧
    (chainContext.continuation = true ∨ chainContext.fields.flags.chain = true) ∧
    (({ copyContext with continuation := true }).continuation = true ∧ copyContext.fields.flags.chain = false) ∧
    ((live.sr 2).head = .empty ∧ (live.sr 2).producer = (live.sr 2).consumer) ∧
    ((chained.sr 2).head = .transfer { headCopy .copy with continuation := true } ∧
      ({ headCopy .copy with continuation := true }).settlement = .execute .copy ∧ (chained.sr 2).link = .linked) ∧
    Status.readFault ∈ [Status.mismatch, .readFault, .writeFault, .deadlineMissed] ∧
    (let s := live.setSr 2 { live.sr 2 with head := .transfer (settledHead .skipped), pendingLevel := some 5 }
     (s.sr 2).head = .transfer (settledHead .skipped) ∧ (settledHead .skipped).settlement = .settled .skipped 0 ∧
      s.works = true ∧ (s.sr 2).dispatched = false ∧ (s.sr 2).pendingLevel = some 5 ∧ s.chainInProgress 2 = false ∧
      (inEngine s .halted).works = false ∧ (s.disp.contexts.map (fun c => c.ring)).Nodup) ∧
    (let s := { chained with disp := { chained.disp with active := some chainContext } }
     (s.sr 2).dispatched = true ∧ s.chainInProgress 2 = true ∧ (s.disp.contexts.map (fun c => c.ring)).Nodup) := by
  decide +kernel

/-- Table 5.2: the last address of W1 and the first that only W3 holds; none after W3. -/
theorem witness_GoverningIsLowestEnabled :
    governing windows52 0x102FF = some 1 ∧ governing windows52 0x10300 = some 3 ∧
    governing windows52 0x10600 = none ∧ governing windows52 0xFFFF = none := by decide +kernel

/-- CR1 and CR3 with writes waiting, CR`last` the ring whose write was last presented. -/
def twoWaiting (last : Fin 8) : State := { withRecord.setCr 3 (withMessage.cr 1) with cplLast := last }

/-- CR1 below its threshold of 2, with a timer. -/
def messageOf (t : Timer) : State := withMessage.setCr 1 { withMessage.cr 1 with threshold := 2, timer := t }

/-- A record, a message by its count and by its timer, each alone and with another ring's write waiting; a write
presented, a ring with one of its own in flight or left in flight, another ring's turn, a threshold not reached. -/
theorem witness_CompletionUnitPresents :
    (withRecord.port.completion = none ∧ turnOf withRecord 1 ∧ recordMay withRecord 1 ∧
      (withRecord.cr 1).outbound = cplRecord :: []) ∧
    (turnOf (twoWaiting 7) 1 ∧ recordMay (twoWaiting 7) 1 ∧ ¬ turnOf (twoWaiting 1) 1 ∧
      turnOf (twoWaiting 1) 3 ∧ messageMay (twoWaiting 1) 3 ∧ (twoWaiting 1).port.completion = none) ∧
    (withMessage.port.completion = none ∧ turnOf withMessage 1 ∧ messageMay withMessage 1) ∧
    (turnOf (messageOf (.elapsed 0)) 1 ∧ messageMay (messageOf (.elapsed 0)) 1) ∧
    ((presentRecord withRecord 1).port.completion ≠ none ∧ ¬ turnOf writingRecord 1 ∧
      ¬ turnOf (withRecord.setLeftWrite 1 true) 1 ∧ ¬ turnOf writingMessage 1 ∧
      ¬ turnOf (messageOf (.running 0)) 1) ∧
    ∀ n, ¬ turnOf live n := by
  unfold turnOf recordMay messageMay noWrite
  and_intros <;> decide +kernel

/-- Of CR1, and of CR0 in a working engine. -/
theorem witness_RecordAnswers :
    (writingRecord.awaits (tx (.completionWrite 1) 0x30000 16) ∧ writingRecord.ctl.engine ≠ .resetting ∧
      writingRecord.leftWrite 1 = false ∧ (writingRecord.cr 1).resetWrite = false ∧
      (writingRecord.cr 1).outbound = cplRecord :: [] ∧ (1 : Fin 8) ≠ 0) ∧
    (let s := holding (live.setCr 0 { live.cr 0 with outbound := [cplRecord], reserved := 1, recordWrite := true })
      (tx (.completionWrite 0) 0x104000 16)
     s.awaits (tx (.completionWrite 0) 0x104000 16) ∧ s.ctl.engine ≠ .resetting ∧ s.leftWrite 0 = false ∧
      (s.cr 0).resetWrite = false ∧ s.works = true) := by
  unfold State.awaits
  decide +kernel

/-- The ring of `writingRecord`, reset meanwhile. -/
def resetMeanwhile : State := writingRecord.setCr 1 { writingRecord.cr 1 with resetWrite := true }

/-- A record write and a message write of a ring reset meanwhile, and both of a ring deleted meanwhile. -/
theorem witness_ResetRingIgnoresAnswer :
    (resetMeanwhile.awaits (tx (.completionWrite 1) 0x30000 16) ∧ resetMeanwhile.ctl.engine ≠ .resetting ∧
      resetMeanwhile.leftWrite 1 = false ∧ (resetMeanwhile.cr 1).resetWrite = true ∧
      (resetMeanwhile.cr 1).outbound = cplRecord :: []) ∧
    (let s := writingMessage.setCr 1 { writingMessage.cr 1 with message := .inFlight, resetWrite := true }
     s.awaits (tx (.messageWrite 1) 0x5000 4) ∧ s.ctl.engine ≠ .resetting ∧ s.leftWrite 1 = false ∧
      (s.cr 1).resetWrite = true) ∧
    ((writingRecord.setLeftWrite 1 true).awaits (tx (.completionWrite 1) 0x30000 16) ∧
      (writingRecord.setLeftWrite 1 true).leftWrite 1 = true) ∧
    ((writingMessage.setLeftWrite 1 true).awaits (tx (.messageWrite 1) 0x5000 4) ∧
      (writingMessage.setLeftWrite 1 true).leftWrite 1 = true) := by
  unfold State.awaits
  decide +kernel

/-- With and without a held arm. -/
theorem witness_MessageAnswers :
    (writingMessage.awaits (tx (.messageWrite 1) 0x5000 4) ∧ writingMessage.ctl.engine ≠ .resetting ∧
      writingMessage.leftWrite 1 = false ∧ (writingMessage.cr 1).resetWrite = false ∧
      (writingMessage.cr 1).message = .inFlightArmHeld) ∧
    ((writingMessage.setCr 1 { writingMessage.cr 1 with message := .inFlight }).awaits
      (tx (.messageWrite 1) 0x5000 4)) := by
  unfold State.awaits
  decide +kernel

theorem witness_FaultsAreCapturedAndMessaged :
    (live.ctl.capture.valid = false ∧ (reportFault live .srFetch 2 0).ctl.capture.valid = true) ∧
    (0 < (owing false).ctl.owed ∧ (owing false).ctl.faultWrite = false ∧ decodes (owing false)) ∧
    (live.ctl.owed = 0 ∧ (owing true).ctl.faultWrite = true ∧ ¬ decodes State.reset) ∧
    ((holding (owing true) (tx .faultMessage 0x6000 4)).awaits (tx .faultMessage 0x6000 4) ∧
      (holding (owing true) (tx .faultMessage 0x6000 4)).ctl.engine ≠ .resetting) := by
  unfold State.awaits decodes
  decide +kernel

theorem witness_PrescalerAndTick :
    (State.reset.time.prescaler < State.reset.ctl.tickDivider) ∧
    (({ State.reset with time := ⟨0xFFFFFFFF, 199, []⟩ }).ctl.tickDivider ≤
      ({ State.reset with time := ⟨0xFFFFFFFF, 199, []⟩ }).time.prescaler) := by decide +kernel

/-- The entry of `watched`. -/
def watchedEntry (p : Place) : WatchEntry := ⟨2, p, 0, 5, 5⟩

/-- At each place, with and without ABORT_ON_MISS, the budget reached exactly; one tick short of it, and in OFF. -/
theorem witness_ExpiryActsWhereHeld :
    (∀ b : Bool, ∀ p ∈ [Place.head, .active, .suspended],
      decodes (watched b p) ∧ (watched b p).watchEntry 2 p = some (watchedEntry p) ∧
      (watchedEntry p).budget ≤ ((watched b p).time.tick - (watchedEntry p).admitted).toNat) ∧
    (∀ b : Bool, ((watched b .head).sr 2).head = .transfer ⟨(watchedContext b).fields, false, 0, .execute .copy, false⟩ ∧
      (watchedContext b).fields.flags.abortOnMiss = b) ∧
    (∀ b : Bool, (watched b .active).disp.active.map (fun c => (c.ring, c.fields.flags.abortOnMiss)) =
      some (2, b)) ∧
    (∀ b : Bool, ((watched b .suspended).disp.stack.find? (fun x => x.ring = 2)).map
      (fun c => c.fields.flags.abortOnMiss) = some b) ∧
    (let s := { watched true .head with time := ⟨4, 0, [watchedEntry .head]⟩ }
     ∀ e ∈ s.time.watch, e.ring = 2 → e.place = .head → (s.time.tick - e.admitted).toNat < e.budget) ∧
    ¬ decodes State.reset := by
  unfold decodes
  decide +kernel

/-- CR1 with its timer running from tick 100 and a coalesce time. -/
def timed (c n : Nat) : State :=
  { live.setCr 1 { live.cr 1 with coalesceTime := c, timer := .running 100 } with
    time := ⟨BitVec.ofNat 32 n, 0, []⟩ }

/-- Reached exactly, one tick short, and with coalesce time 0. -/
theorem witness_CoalesceTimerElapses :
    ((timed 40 140).cr 1).timer = .running 100 ∧
    (((timed 40 140).cr 1).coalesceTime ≠ 0 ∧
      ((timed 40 140).cr 1).coalesceTime ≤ ((timed 40 140).time.tick - 100).toNat) ∧
    ((timed 40 139).time.tick - 100).toNat < ((timed 40 139).cr 1).coalesceTime ∧
    ((timed 0 140).cr 1).coalesceTime = 0 := by decide +kernel

/-- Table 7.4: an equal sample, one below F, one that completes the run. -/
theorem witness_TriggerSampleFilters :
    (false = ((trig2 1 false 0).trig 2).filtered) ∧
    (true ≠ ((trig2 1 false 0).trig 2).filtered ∧
      ((trig2 1 false 0).trig 2).runCount < ((trig2 1 false 0).trig 2).filterLength) ∧
    (true ≠ ((trig2 2 false 0).trig 2).filtered ∧
      ((trig2 2 false 0).trig 2).filterLength ≤ ((trig2 2 false 0).trig 2).runCount) := by decide +kernel

/-- A counted rise from 0 credits, one at 255 credits, a change that is not counted. -/
theorem witness_AcceptedChangeCountsCredit :
    Instr.triggerSample 2 true ∈
      [Instr.triggerChangeAccepted 2, .triggerSample 2 (!((trig2 2 false 0).trig 2).filtered)] ∧
    ((trig2 2 false 0).trig 2).filterLength ≤ ((trig2 2 false 0).trig 2).runCount ∧
    ((trig2 2 false 0).trig 2).edge = .rising ∧ ((trig2 2 false 0).trig 2).credits = 0 ∧
    ((trig2 2 false 255).trig 2).credits ≠ 0 ∧ ((trig2 2 true 0).trig 2).filtered = true := by decide +kernel

/-- An unknown opcode; a set unused byte; for every command with a range in Table 9.1 a value just outside it,
and the last value inside it. -/
theorem witness_AdminChecksFirst :
    ready.adminReady adminTx ∧ recordAdminOp (rec64 0x50 []) = none ∧
    ((placeAdmin ready setLevelRec).sr 0).head = .admin setLevelRec 0 ∧
    (recordAdminOp (rec64 0x41 [(13, 1, 1)]) = some .deleteCr ∧
      unusedClear .deleteCr (rec64 0x41 [(13, 1, 1)]) = false) ∧
    (∀ x ∈ ([(.createCr, rec64 0x40 [(12, 1, 2), (13, 1, 13), (14, 1, 3)]), (.createCr, rec64 0x40 [(12, 1, 2), (13, 1, 4)]),
        (.deleteCr, rec64 0x41 [(12, 1, 8)]), (.deleteCr, rec64 0x41 []), (.createSr, rec64 0x42 [(12, 1, 16)]),
        (.createSr, rec64 0x42 [(12, 1, 3), (13, 1, 4), (15, 1, 1), (16, 8, 0x50020)]),
        (.deleteSr, rec64 0x43 [(12, 1, 16)]), (.setLevel, rec64 0x44 [(12, 1, 2), (14, 1, 8)]),
        (.abortSr, rec64 0x47 []), (.resetSr, rec64 0x48 [(12, 1, 16)]), (.resetCr, rec64 0x49 []),
        (.setWindow, rec64 0x4A [(12, 1, 1)]), (.clearWindow, rec64 0x4B [(12, 1, 8)]), (.setTrigger, rec64 0x4C [(13, 1, 4)]),
        (.setEngine, rec64 0x4D [(12, 2, 100)]), (.query, rec64 0x4E [(12, 1, 5)]), (.query, rec64 0x4E [(12, 1, 4), (13, 1, 1)]),
        (.identify, rec64 0x4F [(16, 8, 32)])] : List (AdminOp × Line)),
      recordAdminOp x.2 = some x.1 ∧ ¬ paramsFit x.1 x.2) ∧
    (∀ x ∈ ([(.createCr, createCrRec), (.createSr, createSrRec), (.setLevel, setLevelRec), (.setWindow, setWindowRec),
        (.pauseSr, rec64 0x45 []), (.resumeSr, rec64 0x46 []),
        (.setTrigger, rec64 0x4C [(12, 1, 7), (13, 1, 3), (14, 1, 15)]), (.setEngine, setEngineRec),
        (.query, rec64 0x4E [(12, 1, 4)])] : List (AdminOp × Line)), paramsFit x.1 x.2) := by
  unfold State.adminReady
  refine ⟨by decide +kernel, by decide +kernel, by decide +kernel, by decide +kernel, ?_, ?_⟩
  · simp only [List.forall_mem_cons, List.not_mem_nil, false_imp_iff, implies_true, and_true, paramsFit]
    and_intros <;> decide +kernel
  · simp only [List.forall_mem_cons, List.not_mem_nil, false_imp_iff, implies_true, and_true, paramsFit]
    and_intros <;> decide +kernel

/-- CREATE_CR with its vector enabled, DELETE_CR and RESET_CR, at ring 7 and ring 1. -/
theorem witness_CompletionRingCommands :
    ready.adminReady adminTx ∧
    (plainRecord .createCr createCrRec ∧ byteAt createCrRec 12 = (2 : Fin 8).val ∧
      1 ≤ byteAt createCrRec 13 ∧ byteAt createCrRec 13 ≤ 12 ∧ 1 ≤ byteAt createCrRec 14 ∧
      fieldAt createCrRec 16 8 % 64 = 0 ∧ fieldAt createCrRec 16 8 + 2 ^ byteAt createCrRec 13 * 16 ≤ 2 ^ 48 ∧
      bitAt createCrRec 26 0 = true ∧ fieldAt createCrRec 28 8 % 4 = 0 ∧ fieldAt createCrRec 28 8 < 2 ^ 48) ∧
    (plainRecord .deleteCr (rec64 0x41 [(12, 1, 7)]) ∧ byteAt (rec64 0x41 [(12, 1, 7)]) 12 = (7 : Fin 8).val) ∧
    (plainRecord .resetCr (rec64 0x49 [(12, 1, 1)]) ∧ byteAt (rec64 0x49 [(12, 1, 1)]) 12 = (1 : Fin 8).val) := by
  unfold State.adminReady plainRecord
  decide +kernel

/-- The three commands in range, a RESET_SR of a ring without and with a dispatched command. -/
theorem witness_SubmissionRingCommands :
    ready.adminReady adminTx ∧
    (plainRecord .createSr createSrRec ∧ byteAt createSrRec 12 = (3 : Fin 16).val ∧
      1 ≤ byteAt createSrRec 13 ∧ byteAt createSrRec 13 ≤ 12 ∧ byteAt createSrRec 14 = (5 : Fin 8).val ∧
      byteAt createSrRec 15 = (1 : Fin 8).val ∧ fieldAt createSrRec 16 8 % 64 = 0 ∧
      fieldAt createSrRec 16 8 + 2 ^ byteAt createSrRec 13 * 64 ≤ 2 ^ 48) ∧
    (plainRecord .deleteSr (rec64 0x43 [(12, 1, 15)]) ∧ byteAt (rec64 0x43 [(12, 1, 15)]) 12 = (15 : Fin 16).val) ∧
    (plainRecord .resetSr (rec64 0x48 [(12, 1, 2)]) ∧ byteAt (rec64 0x48 [(12, 1, 2)]) 12 = (2 : Fin 16).val ∧
      (∀ c ∈ ready.disp.contexts, c.ring ≠ 2)) ∧
    (readyActive.adminReady adminTx ∧ (readyActive.sr 2).dispatched = true ∧ ∃ c ∈ readyActive.disp.contexts, c.ring = 2) := by
  unfold State.adminReady plainRecord
  decide +kernel

/-- SET_LEVEL with and without a chain in progress; a PAUSE_SR of two rings and a RESUME_SR of SR15 and of none. -/
theorem witness_LevelPauseResumeCommands :
    ready.adminReady adminTx ∧
    (plainRecord .setLevel setLevelRec ∧ byteAt setLevelRec 12 = (2 : Fin 16).val ∧
      byteAt setLevelRec 14 = (7 : Fin 8).val ∧ ready.chainInProgress 2 = false ∧
      (ready.setSr 2 { ready.sr 2 with carry := .opened none }).chainInProgress 2 = true) ∧
    (plainRecord .pauseSr (rec64 0x45 [(12, 2, 0x8004)]) ∧
      (List.finRange 16).filter (named (rec64 0x45 [(12, 2, 0x8004)])) = [2, 15]) ∧
    (plainRecord .resumeSr (rec64 0x46 [(12, 2, 0x8000)]) ∧ named (rec64 0x46 [(12, 2, 0x8000)]) 15 = true) ∧
    (plainRecord .resumeSr (rec64 0x46 []) ∧ ∀ n, named (rec64 0x46 []) n = false) := by
  unfold State.adminReady plainRecord
  decide +kernel

/-- Several rings at once: all or nothing, and an ABSENT ring before a wrong state (R145). -/
theorem test_pause_and_resume_several :
    ends (.pauseSr (rec64 0x45 [(12, 2, 0x8004)])) ready = some [(.noRing, 0)] ∧
    ends (.resumeSr (rec64 0x46 [(12, 2, 0x0084)])) ((ready.setSr 2 { ready.sr 2 with state := .paused }).setSr 7
      { ready.sr 2 with state := .faulted }) = some [(.wrongState, 0)] ∧
    ends (.pauseSr (rec64 0x45 [(12, 2, 0x0084)])) (ready.setSr 7 { ready.sr 2 with state := .paused }) =
      some [(.ok, 4)] ∧
    ends (.pauseSr (rec64 0x45 [])) ready = some [(.ok, 0)] := by decide +kernel

theorem witness_AbortOfQuietRingCloses :
    ready.adminReady adminTx ∧ plainRecord .abortSr (rec64 0x47 [(12, 1, 2)]) ∧
    byteAt (rec64 0x47 [(12, 1, 2)]) 12 = (2 : Fin 16).val ∧ (ready.sr 2).state ≠ .absent ∧
    (ready.sr 2).head = .empty ∧ (ready.sr 2).fetchInFlight = false ∧ (ready.sr 2).dispatched = false ∧
    (∀ c ∈ ready.disp.contexts, c.ring ≠ 2) ∧ (∀ x ∈ (ready.cr (ready.sr 2).bound).outbound, x.srId ≠ 2) := by
  unfold State.adminReady plainRecord
  decide +kernel

/-- An ABSENT ring, a ring without a dispatched command, an active one, a suspended one. -/
theorem witness_AbortStartsInItsEvent :
    (ready.adminReady adminTx ∧ plainRecord .abortSr (rec64 0x47 [(12, 1, 15)]) ∧
      byteAt (rec64 0x47 [(12, 1, 15)]) 12 = (15 : Fin 16).val ∧ (ready.sr 15).state = .absent) ∧
    (plainRecord .abortSr (rec64 0x47 [(12, 1, 2)]) ∧ byteAt (rec64 0x47 [(12, 1, 2)]) 12 = (2 : Fin 16).val ∧
      (ready.sr 2).state ≠ .absent ∧ (ready.sr 2).dispatched = false) ∧
    (readyActive.adminReady adminTx ∧ (readyActive.sr 2).state ≠ .absent ∧ (readyActive.sr 2).dispatched = true ∧
      readyActive.disp.active = some copyContext ∧ copyContext.ring = 2) ∧
    (let s := { readyActive with disp := { readyActive.disp with active := some (below 1), stack := [copyContext] } }
     s.adminReady adminTx ∧ (s.sr 2).dispatched = true ∧ (∀ a ∈ s.disp.active, a.ring ≠ 2) ∧
      s.disp.stack.find? (fun x => x.ring = 2) = some copyContext) := by
  unfold State.adminReady plainRecord
  decide +kernel

/-- SR2 under ABORT_SR with a head and the markers. -/
def abortingWith (h : Head) (fetch dispatched : Bool) : State :=
  { live.setSr 2 { live.sr 2 with state := .aborting, head := h, fetchInFlight := fetch, dispatched := dispatched } with
    admin := .abortMarkers 2 false }

/-- An Admin Unit that is not in an ABORT_SR (R137). -/
theorem witness_AbortClosesOnClearMarkers_idle :
    (∀ n k, live.admin ≠ .abortRecords n k) ∧ ∀ n e, live.admin ≠ .abortMarkers n e := by
  have h : live.admin = .idle := rfl
  simp [h]

/-- It waits for each marker and for a working engine; it closes with an empty, a settled and an unsettled head; its
completion waits for a record of the ring and comes without one. -/
theorem witness_AbortClosesOnClearMarkers :
    ((abortingWith .empty true false).admin = .abortMarkers 2 false ∧
      ((abortingWith .empty true false).sr 2).fetchInFlight = true ∧
      ((abortingWith .empty false true).sr 2).dispatched = true ∧
      (inEngine (abortingWith .empty false false) .halted).works = false) ∧
    (∀ h ∈ [Head.empty, .transfer (settledHead .invalid), .transfer (headCopy .copy)],
      (abortingWith h false false).works = true ∧ ((abortingWith h false false).sr 2).fetchInFlight = false ∧
      ((abortingWith h false false).sr 2).dispatched = false ∧ (∀ c ∈ (abortingWith h false false).disp.contexts, c.ring ≠ 2) ∧
      ((abortingWith h false false).sr 2).head = h) ∧
    ((settledHead .invalid).settlement = .settled .invalid 0 ∧ (headCopy .copy).settlement = .execute .copy) ∧
    (let s := { withRecord with admin := .abortRecords 2 3 }
     s.admin = .abortRecords 2 3 ∧ ∃ rec ∈ (s.cr (s.sr 2).bound).outbound, rec.srId = 2) ∧
    (let s := { live with admin := .abortRecords 2 3 }
     s.admin = .abortRecords 2 3 ∧ s.works = true ∧ ∀ rec ∈ (s.cr (s.sr 2).bound).outbound, rec.srId ≠ 2) ∧
    ((live.cr 1).state ≠ .faulted ∧ (live.setCr 1 { live.cr 1 with state := .faulted } |>.cr 1).state = .faulted) := by
  decide +kernel

/-- SET_WINDOW of W1 with a match range that ends at 2^48. -/
def lastWindowRec : Line := rec64 0x4A [(12, 1, 1), (16, 8, 0xFFFFFFFFF000), (24, 8, 0), (32, 8, 0x1000)]

/-- The last window that fits, CLEAR_WINDOW of W7; SET_TRIGGER in range and each field just out of range;
SET_ENGINE with one vector enabled. -/
theorem witness_ConfigurationCommands :
    ready.adminReady adminTx ∧
    (plainRecord .setWindow lastWindowRec ∧ byteAt lastWindowRec 12 = (1 : Fin 8).val ∧
      1 ≤ fieldAt lastWindowRec 32 8 ∧ fieldAt lastWindowRec 32 8 ≤ 2 ^ 32 ∧
      fieldAt lastWindowRec 16 8 + fieldAt lastWindowRec 32 8 ≤ 2 ^ 48 ∧
      fieldAt lastWindowRec 24 8 + fieldAt lastWindowRec 32 8 ≤ 2 ^ 48) ∧
    (plainRecord .clearWindow (rec64 0x4B [(12, 1, 7)]) ∧ byteAt (rec64 0x4B [(12, 1, 7)]) 12 = (7 : Fin 8).val) ∧
    (ready.win 1).locked = false ∧ (busy.win 1).locked = true ∧
    (plainRecord .setTrigger setTriggerRec ∧ byteAt setTriggerRec 12 = (2 : Fin 8).val ∧
      byteAt setTriggerRec 13 = EdgeSelect.rising.code ∧ byteAt setTriggerRec 14 ≤ 15) ∧
    (plainRecord .setTrigger (rec64 0x4C [(12, 1, 8)]) ∧ 7 < byteAt (rec64 0x4C [(12, 1, 8)]) 12) ∧
    (plainRecord .setTrigger (rec64 0x4C [(13, 1, 4)]) ∧ 3 < byteAt (rec64 0x4C [(13, 1, 4)]) 13) ∧
    (plainRecord .setTrigger (rec64 0x4C [(14, 1, 16)]) ∧ 15 < byteAt (rec64 0x4C [(14, 1, 16)]) 14) ∧
    (plainRecord .setEngine setEngineRec ∧ fieldAt setEngineRec 12 2 ∈ [64, 128, 256, 512] ∧
      bitAt setEngineRec 18 0 = false ∧ bitAt setEngineRec 18 1 = true ∧ fieldAt setEngineRec 32 8 % 4 = 0 ∧
      fieldAt setEngineRec 32 8 < 2 ^ 48) := by
  unfold State.adminReady plainRecord
  decide +kernel

/-- QUERY of SR15 into a buffer that ends at 2^48. -/
def lastQueryRec : Line := rec64 0x4E [(12, 1, 0), (13, 1, 15), (16, 8, 0xFFFFFFFFFFC0)]

/-- The last submission ring, the last buffer, and IDENTIFY; a ring whose command is active, suspended and neither;
the result write's answer in a working and in a halted engine. -/
theorem witness_QueryAndIdentifyWriteRecords :
    ready.adminReady adminTx ∧
    (plainRecord .query lastQueryRec ∧ byteAt lastQueryRec 12 ≤ 4 ∧
      byteAt lastQueryRec 13 < (if byteAt lastQueryRec 12 = 0 then 16 else if byteAt lastQueryRec 12 = 4 then 1 else 8) ∧
      fieldAt lastQueryRec 16 8 % 64 = 0 ∧ fieldAt lastQueryRec 16 8 + 64 ≤ 2 ^ 48) ∧
    (plainRecord .identify identifyRec ∧ fieldAt identifyRec 16 8 % 64 = 0) ∧
    (busy.disp.active = some copyContext ∧ (busy.disp.contexts.map (fun x => x.ring)).Nodup ∧
      busy.disp.stack.reverse[0]? = some (below 6) ∧ ∀ c ∈ busy.disp.contexts, c.ring ≠ 3) ∧
    ((resultWriting .running).awaits (tx .resultWrite 0x4000 64) ∧
      (resultWriting .running).admin = .resultWrite (lineOf []) 0x4000 none ∧
      (resultWriting .running).works = true) ∧
    ((resultWriting .halted).awaits (tx .resultWrite 0x4000 64) ∧
      (resultWriting .halted).ctl.engine = .halted) := by
  unfold State.adminReady State.awaits plainRecord
  decide +kernel

/-- CR1 of `busy` is full: one record, two dispatched commands, a head, and eleven entries occupied. -/
theorem witness_ReservationsStayCovered :
    busy.ReservationInv ∧ (busy.cr 1).occupied + (busy.cr 1).reserved = (busy.cr 1).size - 1 ∧
    (resultWriting .running).ReservationInv ∧ (resultWriting .running).admin ≠ .idle := by
  have h : ∀ s : State, (s.admin ≠ .idle → ∃ r a, (s.sr 0).head = .admin r a) →
      ((∀ k, (s.cr k).reserved = (s.cr k).outbound.length + s.holders k) ∧
        (∀ k, (s.cr k).state ≠ .absent → (s.cr k).occupied + (s.cr k).reserved ≤ (s.cr k).size - 1) ∧
        (∀ k, (s.cr k).state = .absent → (s.cr k).reserved = 0) ∧
        (∀ n, (s.sr n).state = .absent ∨ s.ctl.engine = .off → (s.sr n).holds = 0) ∧ (s.sr 0).bound = 0 ∧
        s.FetchInv ∧ s.ContextInv) → s.ReservationInv :=
    fun s ha ⟨h1, h2, h3, h4, h5, h6, h7⟩ => ⟨h1, h2, h3, h4, h5, ha, h6, h7⟩
  refine ⟨h _ (fun e => absurd rfl e) ?_, by decide +kernel, h _ (fun _ => ⟨_, _, rfl⟩) ?_, by decide +kernel⟩ <;>
    (unfold State.FetchInv State.ContextInv; decide +kernel)

theorem witness_invariants_hold_together :
    busy.PortInv ∧ busy.TriggerInv ∧ busy.StackInv ∧ busy.WindowInv := by
  unfold State.PortInv State.TriggerInv State.StackInv State.WindowInv TriggerLine.bounded Window.bounded
    Dispatcher.levels Port.outstandingIds
  decide +kernel

/-- The hypotheses of the statements about every step: the step of `busy` answers a next state. -/
theorem witness_every_step :
    (busy.win 1).locked = true ∧ busy.pending.head? ≠ some .powerOnReset ∧ (∃ t, step busy = .next t) ∧
    Instr.prescalerCount ≠ .powerOnReset ∧ ∃ t, exec .prescalerCount busy = .next t := by
  refine ⟨by decide +kernel, by decide +kernel, ⟨_, rfl⟩, by decide, ⟨_, rfl⟩⟩

end Sys2Proof.Tests
end

section
/-! PROOFS. NOTIFY writes (R3 to R5, R132): what a tail update and a head update do in each of their cases,
and the statements on their outcomes (O4, O5). -/

open Sys2Proof.Claims

namespace Sys2Proof.Machine

/-! ### What both updates rest on -/

theorem exec_submissionTailUpdate (n : Fin 16) (x : BitVec 12) (a : Bool) (s : State) :
    exec (.submissionTailUpdate n x a) s = .next (tailUpdate s n x.toNat) := rfl

theorem exec_completionHeadUpdate (n : Fin 16) (x : BitVec 12) (a : Bool) (s : State) :
    exec (.completionHeadUpdate n x a) s = .next (headUpdate s n x.toNat a) := rfl

theorem State.decodesNotify_iff (s : State) : s.decodesNotify = true ↔ decodes s := by
  simp [State.decodesNotify, decodes]

/-! ### Submission tail update (R4) -/

section Tail

variable {s : State} {n : Fin 16} {index : Nat}

theorem tailUpdate_absent (hd : decodes s) (ha : (s.sr n).state = .absent) :
    tailUpdate s n index = reportFault s .notifyAbsent n index := by
  simp [tailUpdate, s.decodesNotify_iff.mpr hd, ha]

theorem tailUpdate_outOfRange (hd : decodes s) (ha : (s.sr n).state ≠ .absent)
    (hi : (s.sr n).size ≤ index) :
    tailUpdate s n index = reportFault s .notifyRange n index := by
  simp [tailUpdate, s.decodesNotify_iff.mpr hd, ha, hi]

theorem tailUpdate_accepted (hd : decodes s) (ha : (s.sr n).state ≠ .absent)
    (hi : index < (s.sr n).size) :
    tailUpdate s n index = s.setSr n { s.sr n with producer := index } := by
  simp [tailUpdate, s.decodesNotify_iff.mpr hd, ha, Nat.not_le.mpr hi]

end Tail

/-! ### The head index and the arm of a completion ring (R5, R132) -/

/-- R5's range in the terms of the statements, where the ring's size and the cyclic distance are written out. -/
theorem CplRing.takesHead_iff (c : CplRing) (index : Nat) :
    c.takesHead index = true ↔
      index < 2 ^ c.log2 ∧
        apart (2 ^ c.log2) index c.consumer ≤ apart (2 ^ c.log2) c.producer c.consumer := by
  simp only [CplRing.takesHead, Bool.and_eq_true, decide_eq_true_eq]
  exact Iff.rfl

theorem CplRing.takesHead_eq_false_iff (c : CplRing) (index : Nat) :
    c.takesHead index = false ↔
      2 ^ c.log2 ≤ index ∨
        apart (2 ^ c.log2) c.producer c.consumer < apart (2 ^ c.log2) index c.consumer := by
  rw [← Bool.not_eq_true, c.takesHead_iff, not_and_or, Nat.not_lt, Nat.not_le]

/-- The table of R132: its two rows with a message in flight have one effect. -/
theorem CplRing.arm_eq (c : CplRing) (tick : Tick) :
    c.arm tick =
      if c.message = .none then
        { c with armed := true, timer := if 0 < c.unsignalled then .running tick else c.timer }
      else { c with message := .inFlightArmHeld } := by
  unfold CplRing.arm
  split
  · next h => rw [if_pos h]
  · next h => rw [if_neg h]

/-! ### Completion head update (R5) -/

section Head

variable {s : State} {n : Fin 16} {k : Fin 8} {index : Nat} {arm : Bool}

theorem headUpdate_pastLastRing (hd : decodes s) (hn : 8 ≤ n.val) :
    headUpdate s n index arm = reportFault s .notifyRange n index := by
  simp [headUpdate, s.decodesNotify_iff.mpr hd, Nat.not_lt.mpr hn]

/-- On the number of a completion ring, the second test of R5 follows the first. -/
theorem headUpdate_ring (hd : decodes s) (hk : n.val = k.val) :
    headUpdate s n index arm =
      if (s.cr k).state = .absent then reportFault s .notifyAbsent n index
      else if (s.cr k).takesHead index = false then reportFault s .notifyRange n index
      else s.setCr k (if arm then { s.cr k with consumer := index }.arm s.time.tick
        else { s.cr k with consumer := index }) := by
  have hn : n.val < 8 := hk ▸ k.isLt
  have hfin : (⟨n.val, hn⟩ : Fin 8) = k := Fin.ext hk
  simp [headUpdate, s.decodesNotify_iff.mpr hd, hn, hfin]

theorem headUpdate_absent (hd : decodes s) (hk : n.val = k.val) (ha : (s.cr k).state = .absent) :
    headUpdate s n index arm = reportFault s .notifyAbsent n index := by
  rw [headUpdate_ring hd hk, if_pos ha]

theorem headUpdate_outOfRange (hd : decodes s) (hk : n.val = k.val) (ha : (s.cr k).state ≠ .absent)
    (hi : (s.cr k).takesHead index = false) :
    headUpdate s n index arm = reportFault s .notifyRange n index := by
  rw [headUpdate_ring hd hk, if_neg ha, if_pos hi]

theorem headUpdate_accepted (hd : decodes s) (hk : n.val = k.val) (ha : (s.cr k).state ≠ .absent)
    (hi : (s.cr k).takesHead index = true) :
    headUpdate s n index arm =
      s.setCr k (if arm then { s.cr k with consumer := index }.arm s.time.tick
        else { s.cr k with consumer := index }) := by
  rw [headUpdate_ring hd hk, if_neg ha, if_neg (by simp [hi])]

end Head

/-! ### The statements -/

/-- Settles O4: the three cases of R4. -/
theorem tailUpdateOutcomes : Obligations.TailUpdateOutcomes := by
  intro s n x a hd
  simp only [exec_submissionTailUpdate]
  refine ⟨fun absent => ?_, fun present outside => ?_, fun present inside => ?_⟩
  · rw [tailUpdate_absent hd absent]
  · rw [tailUpdate_outOfRange hd present outside]
  · rw [tailUpdate_accepted hd present inside]

/-- Settles O5: the four cases of R5, and in the accepted one the table of R132. -/
theorem headUpdateOutcomes : Obligations.HeadUpdateOutcomes := by
  intro s n x a hd
  simp only [exec_completionHeadUpdate]
  refine ⟨fun past => ?_, fun k hk =>
    ⟨fun absent => ?_, fun present outside => ?_, fun present below between => ?_⟩⟩
  · rw [headUpdate_pastLastRing hd past]
  · rw [headUpdate_absent hd hk absent]
  · rw [headUpdate_outOfRange hd hk present ((CplRing.takesHead_eq_false_iff _ _).mpr outside)]
  · rw [headUpdate_accepted hd hk present ((CplRing.takesHead_iff _ _).mpr ⟨below, between⟩)]
    cases a with
    | false => rfl
    | true => rw [CplRing.arm_eq]; rfl

end Sys2Proof.Machine
end

section
/-! PROOFS. Source substitution windows (R93): the search through the eight windows, the governing window of an
address, the address a byte is read at, and the statement on them (O29). -/

namespace Sys2Proof.Machine

/-! ### The first of eight -/

theorem all8_eq_finRange : all8 = List.finRange 8 := by decide

/-- `all8` ascends, so a search through it ends at the lowest number that passes. -/
theorem find?_all8_eq_some_iff {p : Fin 8 → Bool} {i : Fin 8} :
    all8.find? p = some i ↔ p i = true ∧ ∀ j < i, ¬ p j = true := by
  rw [all8_eq_finRange, ← Fin.find?_eq_find?_finRange, Fin.find?_eq_some_iff]
  simp only [Bool.not_eq_true]

theorem find?_all8_eq_none_iff {p : Fin 8 → Bool} :
    all8.find? p = none ↔ ∀ i, ¬ p i = true := by
  rw [all8_eq_finRange, ← Fin.find?_eq_find?_finRange, Fin.find?_eq_none_iff]
  simp only [Bool.not_eq_true]

/-! ### The governing window -/

theorem Window.covers_iff (w : Window) (a : Nat) :
    w.covers a = true ↔ w.enabled = true ∧ w.matchBase ≤ a ∧ a < w.matchBase + w.matchLength := by
  simp only [Window.covers, Bool.and_eq_true, decide_eq_true_eq, and_assoc]

section Governing

variable {ws : Vector Window 8} {a : Nat} {i : Fin 8}

theorem governing_eq_some_iff :
    governing ws a = some i ↔
      (ws.get i).covers a = true ∧ ∀ j < i, ¬ (ws.get j).covers a = true :=
  find?_all8_eq_some_iff

theorem governing_eq_none_iff :
    governing ws a = none ↔ ∀ i, ¬ (ws.get i).covers a = true :=
  find?_all8_eq_none_iff

/-! ### The address a byte is read at -/

theorem mappingAt_of_governed (h : governing ws a = some i) :
    mappingAt ws a = .window i (ws.get i).matchBase (ws.get i).substituteBase := by
  simp only [mappingAt, h]

theorem mappingAt_of_ungoverned (h : governing ws a = none) : mappingAt ws a = .own := by
  simp only [mappingAt, h]

end Governing

@[simp] theorem Mapping.address_own (a : Nat) : Mapping.own.address a = a := rfl

@[simp] theorem Mapping.address_window (i : Fin 8) (mb sb a : Nat) :
    (Mapping.window i mb sb).address a = sb + (a - mb) := rfl

/-! ### The statement -/

/-- Settles O29: the search of R93 ends at the lowest-numbered window that covers the address, and the mapping
follows its answer. -/
theorem governingIsLowestEnabled : Obligations.GoverningIsLowestEnabled := by
  intro ws a
  simp only [← Window.covers_iff]
  refine ⟨fun i => governing_eq_some_iff, governing_eq_none_iff, fun i governed => ?_, fun ungoverned => ?_⟩
  · rw [mappingAt_of_governed governed, Mapping.address_window]
  · rw [mappingAt_of_ungoverned ungoverned, Mapping.address_own]

end Sys2Proof.Machine
end

section
/-! PROOFS. The timebase (R101): the period that raises the prescaler, the period that returns it to 0 and
advances the tick counter, and the statement on them (O38). -/

namespace Sys2Proof.Machine

section Clock

variable {s : State}

theorem exec_prescalerCount : exec .prescalerCount s = execPrescalerCount s := rfl

theorem exec_tickAdvance : exec .tickAdvance s = execTickAdvance s := rfl

theorem exec_prescalerCount_of_lt (below : s.time.prescaler < s.ctl.tickDivider) :
    exec .prescalerCount s = .next { s with
      time := { s.time with prescaler := s.time.prescaler + 1 } } := by
  rw [exec_prescalerCount, execPrescalerCount, if_pos below]

theorem exec_tickAdvance_of_le (reached : s.ctl.tickDivider ≤ s.time.prescaler) :
    exec .tickAdvance s = .next { s with
      time := { s.time with prescaler := 0, tick := s.time.tick + 1 } } := by
  rw [exec_tickAdvance, execTickAdvance, if_pos reached]

end Clock

/-- Settles O38: the two cases of R101. -/
theorem prescalerAndTick : Obligations.PrescalerAndTick :=
  fun _ => ⟨exec_prescalerCount_of_lt, exec_tickAdvance_of_le⟩

end Sys2Proof.Machine
end

section
/-! PROOFS. The filter of a trigger input (R113): the sample that clears the run, the sample that lengthens it,
the accepted change with the dispatch decision that may follow it, and the statement on them (O41). -/

namespace Sys2Proof.Machine

/-! ### The accepted change -/

@[simp] theorem TriggerLine.accepted_filtered (t : TriggerLine) : t.accepted.filtered = !t.filtered := by
  simp only [TriggerLine.accepted, apply_ite TriggerLine.filtered, ite_self]

@[simp] theorem TriggerLine.accepted_runCount (t : TriggerLine) : t.accepted.runCount = 0 := by
  simp only [TriggerLine.accepted, apply_ite TriggerLine.runCount, ite_self]

/-- Beyond the accepted line itself, an accepted change is at most decision (a) (R117), which spends credits
and no more of a line. -/
theorem keeps_acceptChange (s : State) (n : Fin 8) :
    Keeps (s.setTrig n (s.trig n).accepted) (acceptChange s n) := by
  unfold acceptChange
  dsimp only
  split
  · exact keeps_decisionA _
  · exact Keeps.refl _

/-- What the filter holds of a line is out of reach of dispatches (R116). -/
theorem TriggerLine.spends.filter_eq {a b : TriggerLine} (h : a.spends b) :
    b.filtered = a.filtered ∧ b.runCount = a.runCount := by
  obtain ⟨-, -, filtered, runCount, -, -⟩ := h
  exact ⟨filtered, runCount⟩

theorem acceptChange_filter_self (s : State) (n : Fin 8) :
    ((acceptChange s n).trig n).filtered = (!(s.trig n).filtered) ∧
      ((acceptChange s n).trig n).runCount = 0 := by
  simpa using ((keeps_acceptChange s n).trigs n).filter_eq

/-- Each line is filtered independently of the others (R113). -/
theorem acceptChange_filter_ne (s : State) {n m : Fin 8} (other : m ≠ n) :
    ((acceptChange s n).trig m).filtered = (s.trig m).filtered ∧
      ((acceptChange s n).trig m).runCount = (s.trig m).runCount := by
  have kept := ((keeps_acceptChange s n).trigs m).filter_eq
  rwa [State.trig_setTrig_ne s n m _ other] at kept

/-! ### The sample -/

section Sample

variable {s : State} {i : Fin 8} {v : Bool}

theorem exec_triggerSample : exec (.triggerSample i v) s = execTriggerSample i v s := rfl

theorem exec_triggerSample_of_eq (same : v = (s.trig i).filtered) :
    exec (.triggerSample i v) s = .next (s.setTrig i { s.trig i with runCount := 0 }) := by
  rw [exec_triggerSample, execTriggerSample, if_pos same]

theorem exec_triggerSample_of_lt (differs : v ≠ (s.trig i).filtered)
    (below : (s.trig i).runCount < (s.trig i).filterLength) :
    exec (.triggerSample i v) s =
      .next (s.setTrig i { s.trig i with runCount := (s.trig i).runCount + 1 }) := by
  rw [exec_triggerSample, execTriggerSample, if_neg differs, if_pos below]

theorem exec_triggerSample_of_le (differs : v ≠ (s.trig i).filtered)
    (reached : (s.trig i).filterLength ≤ (s.trig i).runCount) :
    exec (.triggerSample i v) s = .next (acceptChange s i) := by
  rw [exec_triggerSample, execTriggerSample, if_neg differs, if_neg (Nat.not_lt.mpr reached)]

end Sample

/-- Settles O41: the three cases of R113. A sample has two values, so the one that differs is the complement
the accepted change stores. -/
theorem triggerSampleFilters : Obligations.TriggerSampleFilters := by
  intro s i v
  refine ⟨exec_triggerSample_of_eq, exec_triggerSample_of_lt, fun differs reached => ?_⟩
  obtain ⟨level, count⟩ := acceptChange_filter_self s i
  exact ⟨acceptChange s i, exec_triggerSample_of_le differs reached,
    level.trans (Bool.eq_not.mpr differs).symm, count, fun _ => acceptChange_filter_ne s⟩

end Sys2Proof.Machine
end

section
/-! PROOFS. An answered transaction (R87) and the message of a completion ring: what an awaited answer does
outside RESETTING, the ring after its message is acknowledged (R130), and the statement on it (O35). -/

open Sys2Proof.Claims

namespace Sys2Proof.Machine

/-! ### An awaited answer -/

/-- Outside RESETTING an awaited answer of the right kind takes effect once its entry has left the list (R87). -/
theorem answer_of_awaits {s : State} {t : Transaction} {act : Request → Option (State → State)}
    {f : State → State} (awaited : s.awaits t) (kind : act t.request = some f)
    (working : s.ctl.engine ≠ .resetting) :
    answer s t.id act = .next (f (s.retire t.id)) := by
  have found : s.port.find t.id = some t := awaited
  simp only [answer, found, kind, if_neg working]

/-- The entry that leaves is all that retiring an identifier changes (R87). -/
theorem State.retire_port (s : State) (id : Fin 32) :
    (s.retire id).port = { s.port with outstanding := without s id } := rfl

@[simp] theorem State.cr_retire (s : State) (id : Fin 32) (n : Fin 8) : (s.retire id).cr n = s.cr n := rfl

/-! ### The acknowledged message -/

section Message

variable {s : State} {n : Fin 8}

theorem exec_messageWriteAck {id : Fin 32} : exec (.messageWriteAck id) s = execMessageWriteAck id s := rfl

theorem exec_messageWriteAck_of_awaits {t : Transaction} (awaited : s.awaits t)
    (kind : t.request.kind = .messageWrite n) (working : s.ctl.engine ≠ .resetting) :
    exec (.messageWriteAck t.id) s = .next (messageWritten (s.retire t.id) n) := by
  rw [exec_messageWriteAck, execMessageWriteAck]
  exact answer_of_awaits (f := fun u => messageWritten u n) awaited (by rw [kind]) working

/-- With the ring neither deleted (R141) nor reset (R133) meanwhile, R130's actions are the whole effect. -/
theorem messageWritten_of_kept (kept : s.leftWrite n = false) (unreset : (s.cr n).resetWrite = false) :
    messageWritten s n = s.setCr n (s.cr n).messaged := by
  simp [messageWritten, kept, unreset]

end Message

theorem sameBlocks_setCr_retire (s : State) (id : Fin 32) (n : Fin 8) (c : CplRing) :
    sameBlocks s ((s.retire id).setCr n c) :=
  ⟨rfl, rfl, rfl, rfl, rfl, rfl, rfl⟩

/-- Settles O35: the entry retires (R87), and then the ring alone changes, as R130 says. -/
theorem messageAcknowledged : Obligations.MessageAcknowledged := by
  intro s t n awaited kind working kept unreset
  have acknowledged : exec (.messageWriteAck t.id) s =
      .next ((s.retire t.id).setCr n (s.cr n).messaged) := by
    rw [exec_messageWriteAck_of_awaits awaited kind working,
      messageWritten_of_kept (s := s.retire t.id) kept unreset, State.cr_retire]
  refine ⟨_, acknowledged, State.cr_setCr_self _ n _, fun j other => ?_, rfl,
    sameBlocks_setCr_retire s t.id n _, rfl, rfl, s.retire_port t.id⟩
  rw [State.cr_setCr_ne _ n j _ other, State.cr_retire]

end Sys2Proof.Machine
end

section
/-! PROOFS. What a command does to the parts that the invariants speak of: every command but a reset and the two
clock commands is a chain of changes, each of them one that `Keeps` everything or one named change of the port, a
window, a trigger line or Engine Control; a few rows turn the engine state besides. The invariants are then proved
change by change. -/

namespace Sys2Proof.Machine

-- One proof after the other: many at once use up the memory limit.
set_option Elab.async false

/-! ### The changes -/

/-- An outstanding transaction is given up: its entry leaves the list and its identifier stays held (R88). -/
def State.lose (s : State) (t : Transaction) : State :=
  { s with port := { s.port with
      outstanding := s.port.outstanding.filter (fun x => x.id ≠ t.id)
      abandoned := s.port.abandoned ++ [t.id] } }

/-- One change of the parts that the invariants speak of, the engine state staying or following its pause point
or a halt. -/
inductive Change (s : State) : State → Prop
  | kept {t : State} (k : Keeps s t) : Change s t
  | retired (id : Fin 32) : Change s (s.retire id)
  | freed (id : Fin 32) : Change s (s.freeAbandoned id)
  | lost (t : Transaction) (awaited : t ∈ s.port.outstanding) : Change s (s.lose t)
  | issued (q : Requester) (req : Request) (id : Fin 32) (free : s.canGrant id = true) :
      Change s (issue s q req id)
  | window (i : Fin 8) (w : Window) (unlocked : (s.win i).locked = false) (fits : w.bounded) :
      Change s (s.setWin i w)
  | line (i : Fin 8) (l : TriggerLine) (fits : (s.trig i).bounded → l.bounded) : Change s (s.setTrig i l)
  | control (c : Control) (same : c.engine = s.ctl.engine) : Change s { s with ctl := c }

/-- A chain of changes. -/
abbrev Changes : State → State → Prop := Relation.ReflTransGen Change

theorem Keeps.changes {s t : State} (k : Keeps s t) : Changes s t := .single (.kept k)

/-- A turn of the engine state: one that Table 10.2 gives, or the end of a drain (R164). -/
inductive Turn (s : State) : State → Prop
  | moved (c : Control) (listed : engineMoves s.ctl.engine c.engine = true) : Turn s { s with ctl := c }
  | drained : Turn s (softResetValues s)

/-- The whole effect of a command: a chain of changes, one that ends in a turn of the engine state, or a return to
RUNNING with the changes of decision (c) after it (R67). -/
inductive Effect (s t : State) : Prop
  | changes (c : Changes s t)
  | turned {a : State} (c : Changes s a) (same : a.ctl.engine = s.ctl.engine) (turn : Turn a t)
  | resumed (c : Control) (was : s.ctl.engine = .paused) (now : c.engine = .running)
      (k : Keeps { s with ctl := c } t)

theorem Keeps.effect {s t : State} (k : Keeps s t) : Effect s t := .changes k.changes

theorem Effect.refl (s : State) : Effect s s := .changes .refl

/-- A property that every change and every turn keeps is kept by every effect. -/
theorem Effect.preserves {P : State → Prop} (change : ∀ {s t}, Change s t → P s → P t)
    (turn : ∀ {s t}, Turn s t → P s → P t) {s t : State} (e : Effect s t) (hs : P s) : P t := by
  have chain : ∀ {u}, Changes s u → P u := fun c => by
    induction c with
    | refl => exact hs
    | tail _ last ih => exact change last ih
  cases e with
  | changes c => exact chain c
  | turned c _ last => exact turn last (chain c)
  | resumed c was now k =>
    exact change (.kept k) (turn (.moved c (by rw [was, now]; rfl)) hs)

/-! ### Resets and the register port -/

theorem effect_drainCheck {s a : State} (c : Changes s a) (same : a.ctl.engine = s.ctl.engine) :
    Effect s (drainCheck a) := by
  unfold drainCheck
  split
  · exact .turned c same .drained
  · exact .changes c

theorem keeps_withdrawAll (s : State) : Keeps s (withdrawAll s) := Keeps.same

theorem engineMoves_resetting {e : EngineState} (h : e ≠ .resetting) : engineMoves e .resetting = true := by
  cases e with
  | resetting => exact absurd rfl h
  | _ => rfl

theorem engineMoves_off (e : EngineState) : engineMoves e .off = true := by
  cases e <;> rfl

theorem softResetValues_resetting (s : State) : softResetValues (s.setEngine .resetting) = softResetValues s := rfl

theorem effect_softReset (s : State) : Effect s (softReset s) := by
  unfold softReset
  split
  · exact .refl s
  · next working =>
    unfold drainCheck
    split
    · rw [softResetValues_resetting]
      exact .turned (keeps_withdrawAll s).changes rfl .drained
    · exact .turned (keeps_withdrawAll s).changes rfl (.moved _ (engineMoves_resetting working))

/-- A stored PAUSE changes no engine state. -/
theorem change_pauseBit (s : State) (p : Bool) : Change s { s with ctl := { s.ctl with pauseBit := p } } :=
  .control _ rfl

theorem effect_enableEngine (s : State) (p : Bool) (off : s.ctl.engine = .off) : Effect s (enableEngine s p) := by
  have listed : engineMoves s.ctl.engine (if p then .paused else .running) = true := by
    rw [off]
    cases p <;> rfl
  unfold enableEngine
  dsimp only
  split
  · exact .changes (.tail (.single (change_pauseBit s p)) (.kept (keeps_reportFault _ _ _ _)))
  · split
    · exact .changes (.tail (.single (change_pauseBit s p)) (.kept (keeps_reportFault _ _ _ _)))
    · have rings : Keeps s ((s.setSr 0 (initialSr0 s.ctl)).setCr 0 (initialCr0 s.ctl)) := Keeps.same
      exact .turned rings.changes rfl (.moved _ listed)

theorem effect_takePause (s : State) (p : Bool) : Effect s (takePause s p) := by
  unfold takePause
  dsimp only
  split
  · next running =>
    split <;> exact .turned .refl rfl (.moved _ (by rw [running]; rfl))
  · next pausing => exact .turned .refl rfl (.moved _ (by rw [pausing]; rfl))
  · next paused => exact .resumed _ paused rfl (keeps_decisionC _ _)
  · exact .changes (.single (change_pauseBit s _))

theorem effect_writeDevctl (s : State) (e p r : Bool) : Effect s (writeDevctl s e p r) := by
  unfold writeDevctl
  split
  · exact .refl s
  · split
    · exact effect_softReset s
    · split
      · exact effect_softReset s
      · split
        · next h =>
          simp only [Bool.and_eq_true, decide_eq_true_eq] at h
          exact effect_enableEngine s p h.1.1
        · exact effect_takePause s p

theorem keeps_clearFault (s : State) : Keeps s (clearFault s) :=
  { wins := fun _ => Window.sameConfig_refl _, trigs := fun _ => TriggerLine.spends_refl _
    outstanding := rfl, abandoned := rfl, tick := rfl, prescaler := rfl, pending := rfl
    settings := rfl, engine := .inl rfl, stack := id }

theorem keeps_writeNotify (s : State) (v : Word32) : Keeps s (writeNotify s v) := by
  unfold writeNotify
  split
  · exact keeps_headUpdate s _ _ _
  · exact keeps_tailUpdate s _ _
  · exact Keeps.refl s

theorem store_engine (c : Control) (o : Nat) (v : Word32) : (c.store o v).engine = c.engine := by
  unfold Control.store
  split <;> rfl

theorem effect_writeRegister (s : State) (o : Nat) (v : Word32) : Effect s (writeRegister s o v) := by
  unfold writeRegister
  split
  · exact effect_writeDevctl s _ _ _
  · exact (keeps_writeNotify s v).effect
  · split
    · exact (keeps_clearFault s).effect
    · exact .refl s
  · split
    · exact .changes (.single (.control _ (store_engine _ _ _)))
    · exact .refl s

/-! ### Administrative commands -/

theorem changes_adminChecked {op : AdminOp} {r : Line} {fits : Bool} {s body : State}
    (h : fits = true → Changes s body) : Changes s (adminChecked op r fits s body) := by
  unfold adminChecked
  split
  · next ok => exact h (by simp_all)
  · exact (keeps_finishAdmin s _ _).changes

theorem Changes.finishAdmin {s t : State} (c : Changes s t) (st : Status) (v : Nat) :
    Changes s (finishAdmin t st v) := .tail c (.kept (keeps_finishAdmin t st v))

theorem configuredWindow_bounded {r : Line} (h : windowFits r = true) : (configuredWindow r).bounded := by
  simp only [windowFits, Bool.and_eq_true, decide_eq_true_eq] at h
  exact ⟨h.1.2, h.2⟩

theorem Window.cleared_bounded : Window.cleared.bounded := ⟨Nat.zero_le _, Nat.zero_le _⟩

theorem changes_runSetWindow (r : Line) (s : State) : Changes s (runSetWindow r s) :=
  changes_adminChecked fun fits => by
    split
    · exact (keeps_finishAdmin s _ _).changes
    · next h =>
      exact Changes.finishAdmin (.single (.window _ _ (by simpa using h) (configuredWindow_bounded fits))) _ _

theorem changes_runClearWindow (r : Line) (s : State) : Changes s (runClearWindow r s) :=
  changes_adminChecked fun _ => by
    split
    · exact (keeps_finishAdmin s _ _).changes
    · next h =>
      exact Changes.finishAdmin (.single (.window _ _ (by simpa using h) Window.cleared_bounded)) _ _

theorem changes_runSetTrigger (r : Line) (s : State) : Changes s (runSetTrigger r s) := by
  unfold runSetTrigger
  split
  · exact (keeps_finishAdmin s _ _).changes
  · refine changes_adminChecked fun fits => Changes.finishAdmin (.single (.line _ _ fun _ => ?_)) _ _
    simp only [Bool.and_eq_true, decide_eq_true_eq] at fits
    exact ⟨Nat.zero_le _, fits.2, Nat.zero_le _⟩

theorem changes_runSetEngine (r : Line) (s : State) : Changes s (runSetEngine r s) :=
  changes_adminChecked fun _ => Changes.finishAdmin (.single (.control (s.ctl.withParameters r) rfl)) _ _

theorem changes_runAdmin (op : Option AdminOp) (r : Line) (s : State) : Changes s (runAdmin op r s) := by
  by_cases h : ∀ o, op = some o → configures o = false
  · exact (keeps_runAdmin op r s h).changes
  · simp only [not_forall, exists_prop] at h
    obtain ⟨o, rfl, own⟩ := h
    cases o with
    | setWindow => exact changes_runSetWindow r s
    | clearWindow => exact changes_runClearWindow r s
    | setTrigger => exact changes_runSetTrigger r s
    | setEngine => exact changes_runSetEngine r s
    | _ => exact absurd rfl own

theorem keeps_admin (s : State) (a : AdminState) : Keeps s { s with admin := a } := Keeps.same

theorem changes_adminFetched {record : Line} {run : State → State} (h : ∀ u, Changes u (run u)) (s : State) :
    Changes s (adminFetched record run s) := by
  unfold adminFetched
  dsimp only
  split
  · exact .tail (((keeps_placeAdmin s record).trans (keeps_admin _ .taken)).changes.trans (h _))
      (.kept (keeps_decisionA _))
  · exact (keeps_placeAdmin s record).changes

theorem effect_adminArrives {record : Line} {run : State → State} (h : ∀ u, Changes u (run u)) (s : State) :
    Effect s (adminArrives record run s) := by
  unfold adminArrives
  split
  · split
    · exact effect_drainCheck (.single (.retired _)) rfl
    · exact .changes (.head (.retired _) (changes_adminFetched h _))
  · exact .refl s

/-- An administrative row, whichever of the seventeen it is, runs the command that its record names (R138). -/
theorem adminRow_eq (op : Option AdminOp) (r : Line) (s : State) :
    adminRow op r (runAdmin op r) s = .next (adminArrives r (runAdmin (recordAdminOp r) r) s) := by
  unfold adminRow
  split
  · next h => rw [h]
  · rfl

theorem effect_adminRow {op : Option AdminOp} {r : Line} {s t : State}
    (h : adminRow op r (runAdmin op r) s = .next t) : Effect s t := by
  rw [adminRow_eq] at h
  cases h
  exact effect_adminArrives (changes_runAdmin _ _) s

/-! ### Answers and the port -/

/-- An answer that is taken retires its transaction and then acts, ends the drain, or frees an abandoned
identifier (R87 to R89). -/
theorem effect_answer {s t : State} {id : Fin 32} {act : Request → Option (State → State)}
    (ha : ∀ req f, act req = some f → ∀ u, Changes u (f u)) (h : answer s id act = .next t) : Effect s t := by
  unfold answer at h
  split at h
  · split at h
    · next acts =>
      split at h <;> cases h
      · exact effect_drainCheck (.single (.retired id)) rfl
      · exact .changes (.head (.retired id) (ha _ _ acts _))
    · cases h
  · split at h <;> cases h
    exact .changes (.single (.freed id))

theorem changes_fetched (n : Fin 16) (record : Line) (s : State) : Changes s (fetched n record s) := by
  unfold fetched
  split
  · exact changes_adminFetched (changes_runAdmin _ _) s
  · exact ((keeps_placeTransfer s n record).trans (keeps_settleRing _ n)).changes

theorem effect_abandon {s : State} {t : Transaction} (awaited : t ∈ s.port.outstanding) :
    Effect s (abandon s t) := by
  unfold abandon
  dsimp only
  split
  · exact effect_drainCheck (.single (.lost t awaited)) rfl
  · exact .changes (.head (.lost t awaited) (keeps_deliverError _ _).changes)

theorem changes_grant (s : State) (id : Fin 32) : Changes s (grant s id) := by
  unfold grant
  split
  · next free =>
    split
    · split
      · exact .head (.issued _ _ _ free) (keeps_presentNext _ _).changes
      · exact .refl
    · exact .refl
  · exact .refl

/-! ### Trigger lines -/

theorem TriggerLine.accepted_bounded {l : TriggerLine} (h : l.bounded) : l.accepted.bounded := by
  obtain ⟨credits, len, run⟩ := h
  unfold TriggerLine.accepted TriggerLine.bounded
  split
  · split
    · next below => exact ⟨below, len, Nat.zero_le _⟩
    · exact ⟨credits, len, Nat.zero_le _⟩
  · exact ⟨credits, len, Nat.zero_le _⟩

theorem changes_acceptChange (s : State) (n : Fin 8) : Changes s (acceptChange s n) :=
  .head (.line n _ TriggerLine.accepted_bounded) (keeps_acceptChange s n).changes

/-! ### Every command -/

/-- The two clock commands. -/
def isClock : Instr → Bool
  | .tickAdvance | .prescalerCount => true
  | _ => false

theorem keeps_faultMessageIssued (s : State) :
    Keeps s { s with
      ctl := { s.ctl with faultWrite := true }
      port := { s.port with control := some (faultRequest s.ctl.faultVector) } } :=
  { wins := fun _ => Window.sameConfig_refl _, trigs := fun _ => TriggerLine.spends_refl _
    outstanding := rfl, abandoned := rfl, tick := rfl, prescaler := rfl, pending := rfl
    settings := rfl, engine := .inl rfl, stack := id }

theorem effect_if {p : Prop} [Decidable p] {s u t : State} (e : p → Effect s u)
    (h : (Host.Outcome.next (if p then u else s) : Host.Outcome State Fault Refusal) = .next t) : Effect s t := by
  cases h
  split
  · next hp => exact e hp
  · exact .refl s

theorem effect_execTransactionTimeout {id : Fin 32} {s t : State} (h : execTransactionTimeout id s = .next t) :
    Effect s t := by
  unfold execTransactionTimeout at h
  split at h
  · next found => exact effect_if (fun _ => effect_abandon (List.mem_of_find?_eq_some found)) h
  · cases h
    exact .refl s

theorem effect_execDeadlineExpiry {n : Fin 16} {p : Place} {s t : State}
    (h : execDeadlineExpiry n p s = .next t) : Effect s t := by
  unfold execDeadlineExpiry at h
  split at h
  · exact effect_if (fun _ => ((keeps_unwatch s n p).trans (keeps_deliverExpiry _ n p)).effect) h
  · cases h
    exact .refl s

theorem effect_execTriggerSample {i : Fin 8} {v : Bool} {s t : State} (h : execTriggerSample i v s = .next t) :
    Effect s t := by
  unfold execTriggerSample at h
  cases h
  split
  · exact .changes (.single (.line i _ fun ⟨credits, len, _⟩ => ⟨credits, len, Nat.zero_le _⟩))
  · split
    · next below => exact .changes (.single (.line i _ fun ⟨credits, len, _⟩ => ⟨credits, len, below⟩))
    · exact .changes (changes_acceptChange s i)

/-- Every command but power-on reset and the clock has an effect of this shape. -/
theorem exec_effect {c : Instr} {s t : State} (noReset : c ≠ .powerOnReset) (noClock : isClock c = false)
    (h : exec c s = .next t) : Effect s t := by
  cases c with
  | submissionTailUpdate n x a => cases h; exact (keeps_tailUpdate s _ _).effect
  | completionHeadUpdate n x a => cases h; exact (keeps_headUpdate s _ _ _).effect
  | enable p => cases h; exact effect_writeDevctl s _ _ _
  | pause p => cases h; exact effect_writeDevctl s _ _ _
  | softResetRequest e p r => cases h; exact effect_writeDevctl s _ _ _
  | faultClear => cases h; exact (keeps_clearFault s).effect
  | registerWrite o w v => exact effect_if (fun _ => effect_writeRegister s o v) h
  | powerOnReset => exact absurd rfl noReset
  | admissionBegin n => exact effect_if (fun _ => (keeps_beginAdmission s n).effect) h
  | recordFetchSuccess id r =>
    simp only [exec, execRecordFetchSuccess] at h
    refine effect_answer (fun req f hf u => ?_) h
    split at hf <;> cases hf
    exact changes_fetched _ r u
  | recordFetchError id =>
    simp only [exec, execRecordFetchError] at h
    refine effect_answer (fun req f hf u => ?_) h
    split at hf <;> cases hf
    exact (keeps_failFetch u _).changes
  | memoryGrant id => cases h; exact .changes (changes_grant s id)
  | readUnitAnswer id a =>
    simp only [exec, execReadUnitAnswer] at h
    refine effect_answer (fun req f hf u => ?_) h
    split at hf <;> cases hf
    exact (keeps_readAnswered u _ a).changes
  | writeUnitAnswer id ok =>
    simp only [exec, execWriteUnitAnswer] at h
    refine effect_answer (fun req f hf u => ?_) h
    split at hf <;> cases hf
    exact (keeps_writeAnswered u _ ok).changes
  | completionWriteIssue n => exact effect_if (fun _ => (keeps_presentRecord s n).effect) h
  | completionWriteAck id =>
    simp only [exec, execCompletionWriteAck] at h
    refine effect_answer (fun req f hf u => ?_) h
    split at hf <;> cases hf
    exact (keeps_recordWritten u _).changes
  | completionWriteError id =>
    simp only [exec, execCompletionWriteError] at h
    refine effect_answer (fun req f hf u => ?_) h
    split at hf <;> cases hf
    exact (keeps_recordFailed u _).changes
  | messageWriteIssue n => exact effect_if (fun _ => (keeps_presentMessage s n).effect) h
  | messageWriteAck id =>
    simp only [exec, execMessageWriteAck] at h
    refine effect_answer (fun req f hf u => ?_) h
    split at hf <;> cases hf
    exact (keeps_messageWritten u _).changes
  | messageWriteError id =>
    simp only [exec, execMessageWriteError] at h
    refine effect_answer (fun req f hf u => ?_) h
    split at hf <;> cases hf
    exact (keeps_messageFailed u _ _).changes
  | resultWriteAnswer id ok =>
    simp only [exec, execResultWriteAnswer] at h
    refine effect_answer (fun req f hf u => ?_) h
    split at hf <;> cases hf
    exact (keeps_resultAnswered u ok).changes
  | faultMessageIssue => exact effect_if (fun _ => (keeps_faultMessageIssued s).effect) h
  | faultMessageAnswer id ok =>
    simp only [exec, execFaultMessageAnswer] at h
    refine effect_answer (fun req f hf u => ?_) h
    split at hf <;> cases hf
    exact (keeps_faultMessaged u).changes
  | transactionTimeout id => exact effect_execTransactionTimeout h
  | lateResponse id =>
    simp only [exec, execLateResponse] at h
    exact effect_answer (fun _ _ hf => by cases hf) h
  | tickAdvance => cases noClock
  | deadlineExpiry n p => exact effect_execDeadlineExpiry h
  | coalesceTimerElapse n => exact effect_if (fun _ => (keeps_setCr s n _).effect) h
  | triggerChangeAccepted i => exact effect_if (fun _ => .changes (changes_acceptChange s i)) h
  | adminUnknown r => exact effect_adminRow (op := none) h
  | createCr r => exact effect_adminRow (op := some .createCr) h
  | deleteCr r => exact effect_adminRow (op := some .deleteCr) h
  | createSr r => exact effect_adminRow (op := some .createSr) h
  | deleteSr r => exact effect_adminRow (op := some .deleteSr) h
  | setLevel r => exact effect_adminRow (op := some .setLevel) h
  | pauseSr r => exact effect_adminRow (op := some .pauseSr) h
  | resumeSr r => exact effect_adminRow (op := some .resumeSr) h
  | abortSr r => exact effect_adminRow (op := some .abortSr) h
  | resetSr r => exact effect_adminRow (op := some .resetSr) h
  | resetCr r => exact effect_adminRow (op := some .resetCr) h
  | setWindow r => exact effect_adminRow (op := some .setWindow) h
  | clearWindow r => exact effect_adminRow (op := some .clearWindow) h
  | setTrigger r => exact effect_adminRow (op := some .setTrigger) h
  | setEngine r => exact effect_adminRow (op := some .setEngine) h
  | query r => exact effect_adminRow (op := some .query) h
  | identify r => exact effect_adminRow (op := some .identify) h
  | triggerSample i v => exact effect_execTriggerSample h
  | prescalerCount => cases noClock

/-- A clock command changes the tick and the prescaler alone (R101). -/
theorem exec_clock {c : Instr} {s t : State} (clock : isClock c = true) (h : exec c s = .next t) :
    ∃ tick prescaler, t = { s with time := ⟨tick, prescaler, s.time.watch⟩ } := by
  cases c <;> cases clock <;> cases h <;> dsimp only <;> split
  all_goals exact ⟨_, _, rfl⟩

end Sys2Proof.Machine
end

section
/-! PROOFS. The step invariants that rest on the changes of a command: the identifiers of the port (O53), the
trigger lines (O54), the order of the stack (O55), the bounds of the windows (O56), locked windows (O57), the moves
of the engine state (O58), and the tick (O60). -/

open Sys2Proof.Claims

namespace Sys2Proof.Machine

-- One proof after the other: many at once use up the memory limit.
set_option Elab.async false

/-! ### From the changes to a step -/

/-- A property of the state that neither the queue nor the clock touches, that holds after power-on reset, and that
every change and every turn keeps, is kept by every step. -/
theorem step_preserves {P : State → Prop} (queue : ∀ {s} q, P s → P { s with pending := q })
    (clock : ∀ {s} tm, P s → P { s with time := tm }) (reset : ∀ s, P (powerOn s))
    (change : ∀ {s t}, Change s t → P s → P t) (turn : ∀ {s t}, Turn s t → P s → P t)
    {s t : State} (hs : P s) (h : step s = .next t) : P t := by
  unfold step at h
  split at h
  · cases h
    exact hs
  · next c rest _ =>
    by_cases isReset : c = .powerOnReset
    · subst isReset
      cases h
      exact reset _
    · cases isClock' : isClock c with
      | true =>
        obtain ⟨tick, prescaler, rfl⟩ := exec_clock isClock' h
        exact clock _ (queue rest hs)
      | false => exact (exec_effect isReset isClock' h).preserves change turn (queue rest hs)

/-! ### Identifiers (R86, R88) -/

theorem Port.held_eq_false_iff (p : Port) (id : Fin 32) :
    p.held id = false ↔ id ∉ p.outstandingIds ++ p.abandoned := by
  simp only [Port.held, Bool.or_eq_false_iff, List.any_eq_false, decide_eq_true_eq, List.contains_eq_mem,
    decide_eq_false_iff_not, List.mem_append, not_or, Port.outstandingIds, List.mem_map, not_exists, not_and]

theorem canGrant_iff (s : State) (id : Fin 32) :
    s.canGrant id = true ↔
      s.port.outstanding.length < 16 ∧ id ∉ s.port.outstandingIds ++ s.port.abandoned ∧
        s.ctl.engine ≠ .resetting := by
  simp only [State.canGrant, Bool.and_eq_true, decide_eq_true_eq, Bool.not_eq_true', Port.held_eq_false_iff,
    and_assoc]
  exact Iff.rfl

/-- Fewer transactions with fewer identifiers. -/
theorem portInv_of_sublist {s t : State} (outstanding : t.port.outstanding.Sublist s.port.outstanding)
    (abandoned : t.port.abandoned.Sublist s.port.abandoned) (h : s.PortInv) : t.PortInv :=
  ⟨outstanding.length_le.trans h.1, h.2.sublist ((outstanding.map _).append abandoned)⟩

theorem portInv_issue {s : State} {q : Requester} {req : Request} {id : Fin 32} (free : s.canGrant id = true)
    (h : s.PortInv) : (issue s q req id).PortInv := by
  obtain ⟨room, unheld, -⟩ := (canGrant_iff s id).mp free
  have taken : (s.port.take q).abandoned = s.port.abandoned := by cases q <;> rfl
  have ids : (issue s q req id).port.outstandingIds ++ (issue s q req id).port.abandoned =
      s.port.outstandingIds ++ id :: s.port.abandoned := by
    simp [issue, Port.outstandingIds, taken]
  refine ⟨by simpa [issue, Config.maxOutstanding] using room, ?_⟩
  rw [ids]
  exact List.nodup_middle.mpr (List.nodup_cons.mpr ⟨unheld, h.2⟩)

/-- A lost transaction hands its identifier from the outstanding ones to the abandoned ones. -/
theorem portInv_lose {s : State} {t : Transaction} (awaited : t ∈ s.port.outstanding) (h : s.PortInv) :
    (s.lose t).PortInv := by
  have fewer : (s.lose t).port.outstanding.Sublist s.port.outstanding := List.filter_sublist
  have left : t.id ∉ (s.lose t).port.outstandingIds := by
    simp [State.lose, Port.outstandingIds]
  have held : t.id ∈ s.port.outstandingIds := List.mem_map_of_mem awaited
  obtain ⟨room, ids⟩ := h
  refine ⟨fewer.length_le.trans room, ?_⟩
  have rest : ((s.lose t).port.outstandingIds ++ s.port.abandoned).Nodup :=
    ids.sublist ((fewer.map _).append (List.Sublist.refl _))
  have unheld : t.id ∉ (s.lose t).port.outstandingIds ++ s.port.abandoned := by
    rw [List.mem_append, not_or]
    exact ⟨left, fun both => (List.nodup_append.mp ids).2.2 _ held _ both rfl⟩
  show ((s.lose t).port.outstandingIds ++ (s.port.abandoned ++ [t.id])).Nodup
  rw [← List.append_assoc]
  exact List.nodup_append_comm.mp (List.nodup_cons.mpr ⟨unheld, rest⟩)

theorem Change.portInv {s t : State} (c : Change s t) (h : s.PortInv) : t.PortInv := by
  cases c with
  | kept k => exact portInv_of_sublist (by rw [k.outstanding]) (by rw [k.abandoned]) h
  | retired id => exact portInv_of_sublist (s := s) List.filter_sublist (List.Sublist.refl _) h
  | freed id => exact portInv_of_sublist (s := s) (List.Sublist.refl _) List.filter_sublist h
  | lost t awaited => exact portInv_lose awaited h
  | issued q req id free => exact portInv_issue free h
  | window i w _ _ => exact h
  | line i l _ => exact h
  | control c _ => exact h

theorem Turn.portInv {s t : State} (c : Turn s t) (h : s.PortInv) : t.PortInv := by
  cases c with
  | moved c _ => exact h
  | drained => exact portInv_of_sublist (s := s) (List.nil_sublist _) (List.Sublist.refl _) h

theorem portInv_powerOn (s : State) : (powerOn s).PortInv := ⟨Nat.zero_le _, List.nodup_nil⟩

/-- Settles O53. -/
theorem identifiersHeldOnce : Obligations.IdentifiersHeldOnce := fun _ _ =>
  step_preserves (P := State.PortInv) (fun _ h => h) (fun _ h => h) portInv_powerOn Change.portInv Turn.portInv

/-! ### Trigger lines (R113, R114) -/

theorem TriggerLine.spends.bounded {a b : TriggerLine} (h : a.spends b) (hb : a.bounded) : b.bounded := by
  obtain ⟨-, len, -, run, -, credits⟩ := h
  obtain ⟨creditBound, lenBound, runBound⟩ := hb
  exact ⟨credits.trans creditBound, len ▸ lenBound, by rw [len, run]; exact runBound⟩

theorem trig_replicate_cleared (i : Fin 8) : (Vector.replicate 8 TriggerLine.cleared).get i = .cleared := by
  simp [Vector.get_eq_getElem]

theorem TriggerLine.cleared_bounded : TriggerLine.cleared.bounded :=
  ⟨Nat.zero_le _, Nat.zero_le _, Nat.zero_le _⟩

theorem trig_softResetValues (s : State) (i : Fin 8) :
    (softResetValues s).trig i = (s.trig i).afterSoftReset := by
  simp [softResetValues, State.trig, Vector.get_eq_getElem]

theorem Change.triggerInv {s t : State} (c : Change s t) (h : s.TriggerInv) : t.TriggerInv := by
  intro j
  cases c with
  | kept k => exact (k.trigs j).bounded (h j)
  | line i l fits =>
    rw [State.trig_setTrig]
    split
    · exact fits (h i)
    · exact h j
  | _ => exact h j

theorem Turn.triggerInv {s t : State} (c : Turn s t) (h : s.TriggerInv) : t.TriggerInv := by
  intro j
  cases c with
  | moved c _ => exact h j
  | drained =>
    rw [trig_softResetValues]
    exact TriggerLine.cleared_bounded

theorem triggerInv_powerOn (s : State) : (powerOn s).TriggerInv := fun i => by
  show ((Vector.replicate 8 TriggerLine.cleared).get i).bounded
  rw [trig_replicate_cleared]
  exact TriggerLine.cleared_bounded

/-- Settles O54. -/
theorem triggerLinesStayBounded : Obligations.TriggerLinesStayBounded := fun _ _ =>
  step_preserves (P := State.TriggerInv) (fun _ h => h) (fun _ h => h) triggerInv_powerOn Change.triggerInv
    Turn.triggerInv

/-! ### The suspension stack (R55) -/

theorem Change.stackInv {s t : State} (c : Change s t) (h : s.StackInv) : t.StackInv := by
  cases c with
  | kept k => exact k.stack h
  | _ => exact h

theorem Turn.stackInv {s t : State} (c : Turn s t) (h : s.StackInv) : t.StackInv := by
  cases c with
  | moved c _ => exact h
  | drained => exact List.Pairwise.nil

theorem stackInv_powerOn (s : State) : (powerOn s).StackInv := List.Pairwise.nil

/-- Settles O55. -/
theorem stackStaysOrdered : Obligations.StackStaysOrdered := fun _ _ =>
  step_preserves (P := State.StackInv) (fun _ h => h) (fun _ h => h) stackInv_powerOn Change.stackInv
    Turn.stackInv

/-! ### Windows (R90, R98) -/

theorem Window.sameConfig.bounded {v w : Window} (h : v.sameConfig w) (hv : v.bounded) : w.bounded := by
  obtain ⟨-, -, mb, ml, sb⟩ := h
  simpa only [Window.bounded, mb, ml, sb] using hv

theorem win_softResetValues (s : State) (i : Fin 8) :
    (softResetValues s).win i = (s.win i).afterSoftReset := by
  simp [softResetValues, State.win, Vector.get_eq_getElem]

theorem Change.windowInv {s t : State} (c : Change s t) (h : s.WindowInv) : t.WindowInv := by
  intro j
  cases c with
  | kept k => exact (k.wins j).bounded (h j)
  | window i w _ fits =>
    rw [State.win_setWin]
    split
    · exact fits
    · exact h j
  | _ => exact h j

theorem Turn.windowInv {s t : State} (c : Turn s t) (h : s.WindowInv) : t.WindowInv := by
  intro j
  cases c with
  | moved c _ => exact h j
  | drained =>
    rw [win_softResetValues]
    unfold Window.afterSoftReset
    split
    · exact h j
    · exact Window.cleared_bounded

theorem windowInv_powerOn (s : State) : (powerOn s).WindowInv := fun i => by
  show ((Vector.replicate 8 Window.cleared).get i).bounded
  simpa [Vector.get_eq_getElem] using Window.cleared_bounded

/-- Settles O56. -/
theorem windowsStayBounded : Obligations.WindowsStayBounded := fun _ _ =>
  step_preserves (P := State.WindowInv) (fun _ h => h) (fun _ h => h) windowInv_powerOn Change.windowInv
    Turn.windowInv

/-- Window i is locked and configured as w. -/
def lockedAs (w : Window) (i : Fin 8) (s : State) : Prop := w.sameConfig (s.win i) ∧ (s.win i).locked = true

theorem Change.lockedAs {w : Window} {i : Fin 8} {s t : State} (c : Change s t) (h : lockedAs w i s) :
    lockedAs w i t := by
  obtain ⟨same, locked⟩ := h
  cases c with
  | kept k => exact ⟨Window.sameConfig_trans same (k.wins i), (k.wins i).2.1.trans locked⟩
  | window j v unlocked _ =>
    have other : i ≠ j := fun e => by simp [← e, locked] at unlocked
    unfold Machine.lockedAs
    rw [State.win_setWin_ne _ _ _ _ other]
    exact ⟨same, locked⟩
  | _ => exact ⟨same, locked⟩

theorem Turn.lockedAs {w : Window} {i : Fin 8} {s t : State} (c : Turn s t) (h : lockedAs w i s) :
    lockedAs w i t := by
  cases c with
  | moved c _ => exact h
  | drained =>
    unfold Machine.lockedAs
    rw [win_softResetValues, Window.afterSoftReset, if_pos h.2]
    exact h

/-- The command at the front of the queue, of a step that is not a power-on reset. -/
theorem step_cases {s t : State} (noReset : s.pending.head? ≠ some .powerOnReset) (h : step s = .next t) :
    t = s ∨ ∃ c rest, c ≠ .powerOnReset ∧ exec c { s with pending := rest } = .next t := by
  unfold step at h
  split at h
  · cases h
    exact .inl rfl
  · next c rest e =>
    exact .inr ⟨c, rest, by simpa [e] using noReset, h⟩

/-- Settles O57: a locked window is out of reach of the only change that configures a window. -/
theorem lockedWindowIsFixed : Obligations.LockedWindowIsFixed := by
  intro s t i locked noReset h
  rcases step_cases noReset h with rfl | ⟨c, rest, isNoReset, run⟩
  · exact Window.sameConfig_refl _
  · have start : lockedAs (s.win i) i { s with pending := rest } := ⟨Window.sameConfig_refl _, locked⟩
    cases isClock' : isClock c with
    | true =>
      obtain ⟨tick, prescaler, rfl⟩ := exec_clock isClock' run
      exact start.1
    | false => exact ((exec_effect isNoReset isClock' run).preserves Change.lockedAs Turn.lockedAs start).1

/-! ### Engine states (R158, Table 10.2) -/

theorem Change.engine {s t : State} (c : Change s t) : s.ctl.engine.follows t.ctl.engine := by
  cases c with
  | kept k => exact k.engine
  | control c same => exact .inl same
  | _ => exact .inl rfl

theorem Changes.engine {s t : State} (c : Changes s t) : s.ctl.engine.follows t.ctl.engine := by
  induction c with
  | refl => exact .inl rfl
  | tail _ last ih => exact EngineState.follows_trans ih last.engine

theorem engineMoves_refl (e : EngineState) : engineMoves e e = true := by cases e <;> rfl

theorem engineMoves_of_follows {a b : EngineState} (h : a.follows b) : engineMoves a b = true := by
  rcases h with rfl | ⟨rfl, rfl⟩ | ⟨rfl | rfl | rfl, rfl⟩
  · exact engineMoves_refl b
  all_goals rfl

theorem Turn.engineMoves {s t : State} (c : Turn s t) : engineMoves s.ctl.engine t.ctl.engine = true := by
  cases c with
  | moved c listed => exact listed
  | drained => exact engineMoves_off _

/-- RUNNING, and a halt that may follow in the same event, are both open to PAUSED (R161, R162). -/
theorem engineMoves_paused_of_follows_running {e : EngineState} (h : EngineState.running.follows e) :
    engineMoves .paused e = true := by
  rcases h with rfl | ⟨h, -⟩ | ⟨-, rfl⟩
  · rfl
  · cases h
  · rfl

theorem Effect.engineMoves {s t : State} (e : Effect s t) :
    engineMoves s.ctl.engine t.ctl.engine = true := by
  cases e with
  | changes c => exact engineMoves_of_follows c.engine
  | turned _ same turn => exact same ▸ turn.engineMoves
  | resumed c was now k =>
    rw [was]
    exact engineMoves_paused_of_follows_running (now ▸ k.engine)

/-- Settles O58. -/
theorem engineMovesAreListed : Obligations.EngineMovesAreListed := by
  intro s t noReset h
  rcases step_cases noReset h with rfl | ⟨c, rest, isNoReset, run⟩
  · exact engineMoves_refl _
  · cases isClock' : isClock c with
    | true =>
      obtain ⟨tick, prescaler, rfl⟩ := exec_clock isClock' run
      exact engineMoves_refl _
    | false => exact (exec_effect isNoReset isClock' run).engineMoves

/-! ### The tick, the prescaler and the queue (R101, R112) -/

/-- The tick, the prescaler and the queue are those of s. -/
def sameClock (s t : State) : Prop :=
  t.time.tick = s.time.tick ∧ t.time.prescaler = s.time.prescaler ∧ t.pending = s.pending

theorem Change.sameClock {r s t : State} (c : Change s t) (h : sameClock r s) : sameClock r t := by
  cases c with
  | kept k =>
    obtain ⟨tick, prescaler, pending⟩ := h
    exact ⟨k.tick.trans tick, k.prescaler.trans prescaler, k.pending.trans pending⟩
  | _ => exact h

theorem Turn.sameClock {r s t : State} (c : Turn s t) (h : sameClock r s) : sameClock r t := by
  cases c with
  | moved c _ => exact h
  | drained => exact h

theorem execPrescalerCount_frame {s t : State} (h : execPrescalerCount s = .next t) :
    t.time.tick = s.time.tick ∧ t.pending = s.pending := by
  unfold execPrescalerCount at h
  split at h <;> cases h <;> exact ⟨rfl, rfl⟩

/-- Settles O60. -/
theorem onlyClockMovesTick : Obligations.OnlyClockMovesTick := by
  intro s t c noReset h
  cases isClock' : isClock c with
  | false =>
    obtain ⟨tick, prescaler, pending⟩ := (exec_effect noReset isClock' h).preserves
      (P := sameClock s) Change.sameClock Turn.sameClock ⟨rfl, rfl, rfl⟩
    exact ⟨fun _ => tick, fun _ _ => prescaler, pending⟩
  | true =>
    have pending : t.pending = s.pending := by
      obtain ⟨tick, prescaler, rfl⟩ := exec_clock isClock' h
      rfl
    cases c <;> cases isClock'
    · exact ⟨fun h => absurd rfl h, fun h => absurd rfl h, pending⟩
    · exact ⟨fun _ => (execPrescalerCount_frame h).1, fun _ h => absurd rfl h, pending⟩

end Sys2Proof.Machine
end

section
/-! PROOFS. Completion space (R14): what covers one completion ring, the invariant of O59 with its parts named, the
changes that spare it, and the exchanges of one hold for one record or reservation that keep it. -/

namespace Sys2Proof.Machine

-- One proof after the other: many at once use up the memory limit.
set_option Elab.async false

/-! ### Ring indices (R2) -/

theorem indexDiff_eq {size : Nat} (pos : 0 < size) (a b : Nat) :
    indexDiff size a b = (a + (size - b % size)) % size := by
  rw [indexDiff, Nat.add_sub_assoc (Nat.mod_lt b pos).le]

theorem indexDiff_lt {size : Nat} (pos : 0 < size) (a b : Nat) : indexDiff size a b < size := Nat.mod_lt _ pos

/-- One more entry raises the distance by one, unless it fills the ring. -/
theorem indexDiff_succ {size a b : Nat} (room : indexDiff size a b + 1 < size) :
    indexDiff size ((a + 1) % size) b = indexDiff size a b + 1 := by
  have pos : 0 < size := by omega
  rw [indexDiff_eq pos] at room ⊢
  rw [indexDiff_eq pos, Nat.mod_add_mod, show a + 1 + (size - b % size) = a + (size - b % size) + 1 by omega,
    ← Nat.mod_add_mod, Nat.mod_eq_of_lt room]

/-- A consumer index taken forward within the occupied entries leaves no more of them. -/
theorem indexDiff_le_of_takes {size p c x : Nat} (below : x < size)
    (between : indexDiff size x c ≤ indexDiff size p c) : indexDiff size p x ≤ indexDiff size p c := by
  have pos : 0 < size := by omega
  have lt : indexDiff size p c < size := indexDiff_lt pos p c
  have ltx : indexDiff size p x < size := indexDiff_lt pos p x
  have sum : (indexDiff size p x + indexDiff size x c) % size = indexDiff size p c := by
    simp only [indexDiff_eq pos, Nat.mod_eq_of_lt below, ← Nat.add_mod]
    rw [show p + (size - x) + (x + (size - c % size)) = p + (size - c % size) + size by omega, Nat.add_mod_right]
  rcases Nat.lt_or_ge (indexDiff size p x + indexDiff size x c) size with small | large
  · rw [Nat.mod_eq_of_lt small] at sum
    omega
  · rw [Nat.mod_eq_sub_mod large, Nat.mod_eq_of_lt (by omega)] at sum
    omega

/-! ### One completion ring -/

/-- The completion space of a ring for which commands hold `h` reservations (R14). -/
def CplRing.covered (c : CplRing) (h : Nat) : Prop :=
  c.reserved = c.outbound.length + h ∧
  (c.state ≠ .absent → c.occupied + c.reserved ≤ c.size - 1) ∧
  (c.state = .absent → c.reserved = 0)

/-- The ring after a completion is produced for it: the record enters the outbound list, or is discarded where the
ring is FAULTED (R15, R21). -/
def CplRing.produced (c : CplRing) (rec : CplRecord) : CplRing :=
  if c.state = .faulted then
    { c with reserved := c.reserved - 1, discarded := saturate Config.countLimit c.discarded 1 }
  else { c with outbound := c.outbound ++ [rec] }

theorem produce_eq (s : State) (n : Fin 8) (rec : CplRecord) :
    produce s n rec = s.setCr n ((s.cr n).produced rec) := by
  unfold produce CplRing.produced
  dsimp only
  split <;> rfl

section Ring

variable {c : CplRing} {h : Nat}

theorem CplRing.size_pos (c : CplRing) : 0 < c.size := Nat.two_pow_pos _

theorem CplRing.occupied_lt (c : CplRing) : c.occupied < c.size := indexDiff_lt c.size_pos _ _

theorem CplRing.cleared_covered : CplRing.cleared.covered 0 :=
  ⟨rfl, fun absurdity => absurd rfl absurdity, fun _ => rfl⟩

/-- An ABSENT ring has nothing held for it. -/
theorem CplRing.covered.unheld (cov : c.covered h) (absent : c.state = .absent) : h = 0 := by
  obtain ⟨count, -, none⟩ := cov
  have := none absent
  omega

/-- A completion takes the place of the hold it was produced for. -/
theorem CplRing.covered.produced (cov : c.covered (h + 1)) (rec : CplRecord) : (c.produced rec).covered h := by
  obtain ⟨count, space, absent⟩ := cov
  unfold CplRing.produced
  split
  · next faulted =>
    have exists_ : c.state ≠ .absent := by simp [faulted]
    have room := space exists_
    exact ⟨by show c.reserved - 1 = c.outbound.length + h; omega, fun _ => by show c.occupied + (c.reserved - 1) ≤ c.size - 1; omega,
      fun e => absurd e exists_⟩
  · refine ⟨?_, space, absent⟩
    simp only [List.length_append, List.length_singleton]
    omega

/-- An admission that finds a free position holds it (R8). -/
theorem CplRing.covered.reserve (cov : c.covered h) (active : c.state = .active) (free : c.hasFree = true)
    (taker : Fin 16) : { c with reserved := c.reserved + 1, lastTaker := taker }.covered (h + 1) := by
  obtain ⟨count, -, -⟩ := cov
  have room : c.occupied + c.reserved < c.size - 1 := by simpa [CplRing.hasFree] using free
  exact ⟨by show c.reserved + 1 = c.outbound.length + (h + 1); omega, fun _ => by show c.occupied + (c.reserved + 1) ≤ c.size - 1; omega,
    fun e => absurd (active.symm.trans e) (by decide)⟩

/-- A failed fetch gives its reservation back (R11). -/
theorem CplRing.covered.giveBack (cov : c.covered (h + 1)) : { c with reserved := c.reserved - 1 }.covered h := by
  obtain ⟨count, space, absent⟩ := cov
  refine ⟨by show c.reserved - 1 = c.outbound.length + h; omega, fun e => ?_, fun e => ?_⟩
  · have := space e
    show c.occupied + (c.reserved - 1) ≤ c.size - 1
    omega
  · have := absent e
    show c.reserved - 1 = 0
    omega

theorem CplRing.covered.signalled (cov : c.covered h) (rec : CplRecord) (tick : Tick) :
    (c.signalled rec tick).covered h := by
  unfold CplRing.signalled
  split
  · exact cov
  · exact cov

/-- The position a written record leaves reserved is the one it occupies (R18). -/
theorem CplRing.covered.written (cov : c.covered h) (tick : Tick) : (c.written tick).covered h := by
  unfold CplRing.written
  split
  · next rec rest list =>
    obtain ⟨count, space, absent⟩ := cov
    rw [list, List.length_cons] at count
    refine CplRing.covered.signalled ⟨?_, fun e => ?_, fun e => ?_⟩ rec tick
    · show c.reserved - 1 = rest.length + h
      omega
    · have room := space e
      have next : indexDiff c.size ((c.producer + 1) % c.size) c.consumer = c.occupied + 1 :=
        indexDiff_succ (show c.occupied + 1 < c.size by omega)
      show indexDiff c.size ((c.producer + 1) % c.size) c.consumer + (c.reserved - 1) ≤ c.size - 1
      omega
    · have := absent e
      omega
  · exact cov

/-- A discarded record releases its reservation (R20). -/
theorem CplRing.covered.retired (cov : c.covered h) : c.retired.covered h := by
  unfold CplRing.retired CplRing.discardOldest
  split
  · next rec rest list =>
    obtain ⟨count, space, absent⟩ := cov
    rw [list, List.length_cons] at count
    refine ⟨?_, fun e => ?_, fun e => ?_⟩
    · show c.reserved - 1 = rest.length + h
      omega
    · have := space e
      show c.occupied + (c.reserved - 1) ≤ c.size - 1
      omega
    · have := absent e
      omega
  · exact cov

/-- The whole list is discarded with its reservations (R19, R21). -/
theorem CplRing.covered.faultedRing (cov : c.covered h) : c.faultedRing.covered h := by
  obtain ⟨count, space, absent⟩ := cov
  refine ⟨?_, fun _ => ?_, fun e => absurd e (by simp [CplRing.faultedRing])⟩
  · show c.reserved - c.outbound.length = 0 + h
    omega
  · have lt := c.occupied_lt
    show c.occupied + (c.reserved - c.outbound.length) ≤ c.size - 1
    by_cases e : c.state = .absent
    · have := absent e
      omega
    · have := space e
      omega

/-- The indices return to 0; what is reserved stays (R151). -/
theorem CplRing.covered.resetRing (cov : c.covered h) (present : c.state ≠ .absent) : c.resetRing.covered h := by
  obtain ⟨count, space, -⟩ := cov
  refine ⟨count, fun _ => ?_, fun e => absurd e (by simp [CplRing.resetRing])⟩
  have room := space present
  have none : c.resetRing.occupied = 0 := by
    show indexDiff c.size 0 0 = 0
    simp [indexDiff]
  rw [none]
  show 0 + c.reserved ≤ c.size - 1
  omega

theorem createdCr_covered (r : Line) : (createdCr r).covered 0 := by
  refine ⟨rfl, fun _ => ?_, fun e => absurd e (by simp [createdCr])⟩
  have : (createdCr r).occupied = 0 := by
    show indexDiff _ 0 0 = 0
    simp [indexDiff]
  rw [this]
  exact Nat.zero_le _

theorem initialCr0_covered (k : Control) : (initialCr0 k).covered 0 := by
  refine ⟨rfl, fun _ => ?_, fun e => absurd e (by simp [initialCr0])⟩
  have : (initialCr0 k).occupied = 0 := by
    show indexDiff _ 0 0 = 0
    simp [indexDiff]
  rw [this]
  exact Nat.zero_le _

/-- A head update that R5 takes leaves no more entries occupied. -/
theorem CplRing.covered.consume (cov : c.covered h) {index : Nat} (takes : c.takesHead index = true) :
    { c with consumer := index }.covered h := by
  obtain ⟨count, space, absent⟩ := cov
  simp only [CplRing.takesHead, Bool.and_eq_true, decide_eq_true_eq] at takes
  refine ⟨count, fun e => ?_, absent⟩
  have room := space e
  have fewer : indexDiff c.size c.producer index ≤ c.occupied := indexDiff_le_of_takes takes.1 takes.2
  show indexDiff c.size c.producer index + c.reserved ≤ c.size - 1
  omega

theorem CplRing.covered.arm (cov : c.covered h) (tick : Tick) : (c.arm tick).covered h := by
  rw [CplRing.arm_eq]
  split
  · exact cov
  · exact cov

end Ring

/-! ### What the commands hold -/

theorem allSr_eq_finRange : allSr = List.finRange 16 := by decide

theorem sum_map_filter_eq {α : Type} (l : List α) (p : α → Bool) (f : α → Nat) :
    ((l.filter p).map f).sum = (l.map (fun a => if p a then f a else 0)).sum := by
  induction l with
  | nil => rfl
  | cons a l ih => cases h : p a <;> simp [h, ih]

theorem holders_eq_sum (s : State) (k : Fin 8) :
    s.holders k = ∑ n, if (s.sr n).bound = k then (s.sr n).holds else 0 := by
  rw [State.holders, allSr_eq_finRange, sum_map_filter_eq, Fin.sum_univ_def]
  simp only [decide_eq_true_eq]

/-- Replacing one submission ring replaces its share of the holds. -/
theorem holders_setSr (s : State) (n : Fin 16) (r : SubRing) (k : Fin 8) :
    ∃ rest, s.holders k = rest + (if (s.sr n).bound = k then (s.sr n).holds else 0) ∧
      (s.setSr n r).holders k = rest + (if r.bound = k then r.holds else 0) := by
  refine ⟨∑ m ∈ Finset.univ.erase n, if (s.sr m).bound = k then (s.sr m).holds else 0, ?_, ?_⟩
  · rw [holders_eq_sum, Finset.sum_erase_add _ _ (Finset.mem_univ n)]
  · rw [holders_eq_sum, ← Finset.sum_erase_add _ _ (Finset.mem_univ n), State.sr_setSr_self]
    congr 1
    exact Finset.sum_congr rfl fun m hm => by rw [State.sr_setSr_ne _ _ _ _ (Finset.ne_of_mem_erase hm)]

/-- Rings that hold nothing leave nothing held. -/
theorem holders_eq_zero {s : State} {k : Fin 8} (h : ∀ n, (s.sr n).bound = k → (s.sr n).holds = 0) :
    s.holders k = 0 := by
  rw [holders_eq_sum]
  refine Finset.sum_eq_zero fun n _ => ?_
  split
  · next e => exact h n e
  · rfl

theorem SubRing.holds_eq_zero_iff (r : SubRing) :
    r.holds = 0 ↔ r.head = .empty ∧ r.fetchInFlight = false ∧ r.dispatched = false := by
  simp only [SubRing.holds, Nat.add_eq_zero_iff, and_assoc]
  cases r.fetchInFlight <;> cases r.dispatched <;> simp

/-! ### The record fetches of a ring -/

/-- 1 where the presented request is a record fetch of ring n. -/
def fetchOf (n : Fin 16) (o : Option Request) : Nat :=
  if o.any (fun q => q.kind = .recordFetch n) then 1 else 0

@[simp] theorem fetchOf_none (n : Fin 16) : fetchOf n none = 0 := rfl

theorem fetchOf_some (n : Fin 16) (q : Request) :
    fetchOf n (some q) = if q.kind = .recordFetch n then 1 else 0 := by
  simp [fetchOf]

/-- The transactions in a list that are record fetches of ring n. -/
def fetchesIn (n : Fin 16) (l : List Transaction) : Nat := l.countP (fun t => t.request.kind = .recordFetch n)

theorem length_filter_presented (n : Fin 16) (o : Option Request) (l : List (Option Request)) (m : List Request) :
    (((o :: l).filterMap id ++ m).filter (fun q => q.kind = .recordFetch n)).length =
      fetchOf n o + ((l.filterMap id ++ m).filter (fun q => q.kind = .recordFetch n)).length := by
  cases o with
  | none => simp
  | some q =>
    by_cases h : q.kind = .recordFetch n
    · simp [fetchOf, h, Nat.add_comm]
    · simp [fetchOf, h]

theorem Port.fetches_eq (p : Port) (n : Fin 16) :
    p.fetches n = fetchOf n p.ringFetch + (fetchOf n p.lane + (fetchOf n p.completion + (fetchOf n p.admin +
      (fetchOf n p.control + fetchesIn n p.outstanding)))) := by
  simp only [Port.fetches, length_filter_presented, List.filterMap_nil, List.nil_append]
  rw [← List.countP_eq_length_filter, List.countP_map]
  rfl

theorem fetchesIn_le_of_sublist {n : Fin 16} {l m : List Transaction} (h : l.Sublist m) :
    fetchesIn n l ≤ fetchesIn n m := h.countP_le

/-- Taking an outstanding record fetch out of the list lowers the count of its ring. -/
theorem fetchesIn_filter_lt {n : Fin 16} {l : List Transaction} {t : Transaction} (mem : t ∈ l)
    (kind : t.request.kind = .recordFetch n) : fetchesIn n (l.filter (fun x => x.id ≠ t.id)) < fetchesIn n l := by
  induction l with
  | nil => cases mem
  | cons x l ih =>
    have le : fetchesIn n (l.filter (fun y => y.id ≠ t.id)) ≤ fetchesIn n l :=
      fetchesIn_le_of_sublist List.filter_sublist
    rcases List.mem_cons.mp mem with rfl | mem
    · have first : fetchesIn n (t :: l) = fetchesIn n l + 1 := by simp [fetchesIn, kind]
      have gone : (t :: l).filter (fun y => y.id ≠ t.id) = l.filter (fun y => y.id ≠ t.id) := by simp
      rw [first, gone]
      omega
    · have fewer := ih mem
      by_cases stays : x.id ≠ t.id
      · rw [List.filter_cons_of_pos (by simpa using stays)]
        simp only [fetchesIn, List.countP_cons] at fewer ⊢
        omega
      · rw [List.filter_cons_of_neg (by simpa using stays)]
        exact fewer.trans_le (fetchesIn_le_of_sublist (List.sublist_cons_self x l))

/-! ### The invariant -/

/-- The invariant of R14 with its parts named. -/
structure Covered (s : State) : Prop where
  space : ∀ k, (s.cr k).covered (s.holders k)
  unheld : ∀ n, (s.sr n).state = .absent ∨ s.ctl.engine = .off → (s.sr n).holds = 0
  bound : (s.sr 0).bound = 0
  admin : s.admin ≠ .idle → ∃ r a, (s.sr 0).head = .admin r a
  fetch : ∀ n, s.port.fetches n + (if (s.sr n).fetchQueued then 1 else 0) ≤
    if (s.sr n).fetchInFlight then 1 else 0
  flight : ∀ n, (s.sr n).fetchInFlight = true → (s.sr n).head = .empty
  rings : (s.disp.contexts.map (fun c => c.ring)).Nodup
  marked : ∀ c ∈ s.disp.contexts, (s.sr c.ring).dispatched = true

theorem reservationInv_iff (s : State) : s.ReservationInv ↔ Covered s where
  mp := fun ⟨count, space, absent, unheld, bound, admin, fetch, rings, marked⟩ =>
    ⟨fun k => ⟨count k, space k, absent k⟩, unheld, bound, admin, fun n => (fetch n).1, fun n => (fetch n).2,
      rings, marked⟩
  mpr := fun ⟨cover, unheld, bound, admin, fetch, flight, rings, marked⟩ =>
    ⟨fun k => (cover k).1, fun k => (cover k).2.1, fun k => (cover k).2.2, unheld, bound, admin,
      fun n => ⟨fetch n, flight n⟩, rings, marked⟩

/-- A submission ring that holds what it held. -/
structure SubRing.spares (a b : SubRing) : Prop where
  bound : b.bound = a.bound
  state : b.state = .absent → a.state = .absent
  empty : b.head = .empty ↔ a.head = .empty
  admin : (∃ r x, a.head = .admin r x) → ∃ r x, b.head = .admin r x
  flight : b.fetchInFlight = a.fetchInFlight
  dispatched : b.dispatched = a.dispatched

/-- A change that neither takes nor gives back a reservation. -/
structure Spares (s t : State) : Prop where
  crs : ∀ k h, (s.cr k).covered h → (t.cr k).covered h
  srs : ∀ n, (s.sr n).spares (t.sr n)
  engine : t.ctl.engine = .off → s.ctl.engine = .off
  admin : t.admin ≠ .idle → s.admin ≠ .idle
  fetches : ∀ n, t.port.fetches n + (if (t.sr n).fetchQueued then 1 else 0) ≤
    s.port.fetches n + if (s.sr n).fetchQueued then 1 else 0
  contexts : (t.disp.contexts.map (fun c => c.ring)).Sublist (s.disp.contexts.map (fun c => c.ring))

theorem SubRing.spares_refl (a : SubRing) : a.spares a := ⟨rfl, id, Iff.rfl, id, rfl, rfl⟩

theorem SubRing.spares.trans {a b c : SubRing} (h : a.spares b) (k : b.spares c) : a.spares c :=
  ⟨k.bound.trans h.bound, h.state ∘ k.state, k.empty.trans h.empty, k.admin ∘ h.admin, k.flight.trans h.flight,
    k.dispatched.trans h.dispatched⟩

theorem SubRing.spares.holds_eq {a b : SubRing} (h : a.spares b) : b.holds = a.holds := by
  simp only [SubRing.holds, h.empty, h.flight, h.dispatched]

theorem Spares.trans {a b c : State} (h : Spares a b) (k : Spares b c) : Spares a c :=
  ⟨fun i n => k.crs i n ∘ h.crs i n, fun n => (h.srs n).trans (k.srs n), h.engine ∘ k.engine, h.admin ∘ k.admin,
    fun n => (k.fetches n).trans (h.fetches n), k.contexts.trans h.contexts⟩

/-- A change outside the rings, the contexts, the port, the Admin Unit and the engine state. -/
theorem Spares.same {s t : State} (hc : t.crs = s.crs := by rfl) (hs : t.srs = s.srs := by rfl)
    (he : t.ctl.engine = s.ctl.engine := by rfl) (ha : t.admin = s.admin := by rfl)
    (hp : t.port = s.port := by rfl) (hd : t.disp = s.disp := by rfl) : Spares s t where
  crs k h cov := by simpa only [State.cr, hc] using cov
  srs n := by simpa only [State.sr, hs] using SubRing.spares_refl (s.sr n)
  engine := by rw [he]; exact id
  admin := by rw [ha]; exact id
  fetches n := by simp only [State.sr, hs, hp]; exact le_refl _
  contexts := by rw [hd]

theorem Spares.refl (s : State) : Spares s s := .same

theorem holders_of_spares {s t : State} (h : Spares s t) (k : Fin 8) : t.holders k = s.holders k := by
  simp only [holders_eq_sum, (h.srs _).bound, (h.srs _).holds_eq]

theorem Covered.spares {s t : State} (h : Covered s) (k : Spares s t) : Covered t where
  space i := by
    rw [holders_of_spares k]
    exact k.crs i _ (h.space i)
  unheld n e := by
    rw [(k.srs n).holds_eq]
    exact h.unheld n (e.imp (k.srs n).state k.engine)
  bound := (k.srs 0).bound.trans h.bound
  admin e := (k.srs 0).admin (h.admin (k.admin e))
  fetch n := by
    rw [(k.srs n).flight]
    exact (k.fetches n).trans (h.fetch n)
  flight n e := (k.srs n).empty.mpr (h.flight n ((k.srs n).flight ▸ e))
  rings := h.rings.sublist k.contexts
  marked c mem := by
    obtain ⟨d, memd, ring⟩ := List.mem_map.mp (k.contexts.subset (List.mem_map_of_mem mem))
    rw [(k.srs c.ring).dispatched, ← ring]
    exact h.marked d memd

/-- A port with no more record fetches of any ring. -/
theorem spares_port {s : State} {p : Port} (h : ∀ n, p.fetches n ≤ s.port.fetches n) :
    Spares s { s with port := p } where
  crs _ _ := id
  srs n := SubRing.spares_refl (s.sr n)
  engine := id
  admin := id
  fetches n := Nat.add_le_add_right (h n) _
  contexts := List.Sublist.refl _

theorem spares_disp {s : State} {d : Dispatcher}
    (h : (d.contexts.map (fun c => c.ring)).Sublist (s.disp.contexts.map (fun c => c.ring))) :
    Spares s { s with disp := d } where
  crs _ _ := id
  srs n := SubRing.spares_refl (s.sr n)
  engine := id
  admin := id
  fetches _ := le_refl _
  contexts := h

theorem spares_admin {s : State} {a : AdminState} (h : a ≠ .idle → s.admin ≠ .idle) :
    Spares s { s with admin := a } where
  crs _ _ := id
  srs n := SubRing.spares_refl (s.sr n)
  engine := id
  admin := h
  fetches _ := le_refl _
  contexts := List.Sublist.refl _

theorem spares_ctl {s : State} {c : Control} (h : c.engine = .off → s.ctl.engine = .off) :
    Spares s { s with ctl := c } where
  crs _ _ := id
  srs n := SubRing.spares_refl (s.sr n)
  engine := h
  admin := id
  fetches _ := le_refl _
  contexts := List.Sublist.refl _

theorem spares_setSr {s : State} {n : Fin 16} {r : SubRing} (h : (s.sr n).spares r)
    (queued : r.fetchQueued = (s.sr n).fetchQueued) : Spares s (s.setSr n r) where
  crs _ _ := id
  srs m := by
    rw [State.sr_setSr]
    split
    · next e => exact e ▸ h
    · exact SubRing.spares_refl _
  engine := id
  admin := id
  fetches m := by
    rw [State.sr_setSr]
    split
    · next e =>
      subst e
      rw [queued]
      exact le_refl _
    · exact le_refl _
  contexts := List.Sublist.refl _

theorem spares_setCr {s : State} {n : Fin 8} {c : CplRing} (h : ∀ x, (s.cr n).covered x → c.covered x) :
    Spares s (s.setCr n c) where
  crs k x cov := by
    rw [State.cr_setCr]
    split
    · next e =>
      subst e
      exact h x cov
    · exact cov
  srs m := SubRing.spares_refl (s.sr m)
  engine := id
  admin := id
  fetches _ := le_refl _
  contexts := List.Sublist.refl _

/-! ### Exchanges -/

theorem setCr_self (s : State) (k : Fin 8) : s.setCr k (s.cr k) = s := by
  have same : s.crs.set k (s.cr k) = s.crs := Vector.set_getElem_self k.isLt
  unfold State.setCr
  rw [same]

/-- A submission ring and its completion ring change together, the holds of the one following the reservations of
the other. -/
theorem Covered.exchange {s : State} (h : Covered s) {n : Fin 16} {k : Fin 8} {r : SubRing} {c : CplRing}
    (old : (s.sr n).bound = k) (new : r.bound = k)
    (space : ∀ x, (s.cr k).covered (x + (s.sr n).holds) → c.covered (x + r.holds))
    (unheld : r.state = .absent ∨ s.ctl.engine = .off → r.holds = 0)
    (admin : n = 0 → s.admin ≠ .idle → ∃ a t, r.head = .admin a t)
    (fetch : s.port.fetches n + (if r.fetchQueued then 1 else 0) ≤ if r.fetchInFlight then 1 else 0)
    (flight : r.fetchInFlight = true → r.head = .empty)
    (marked : r.dispatched = false → ∀ d ∈ s.disp.contexts, d.ring ≠ n) :
    Covered ((s.setCr k c).setSr n r) where
  space j := by
    show ((s.setCr k c).cr j).covered ((s.setSr n r).holders j)
    obtain ⟨rest, before, after⟩ := holders_setSr s n r j
    have cov := h.space j
    rw [after, State.cr_setCr]
    rw [before] at cov
    rcases eq_or_ne j k with rfl | other
    · rw [if_pos rfl, if_pos new]
      rw [if_pos old] at cov
      exact space rest cov
    · rw [if_neg other, if_neg (fun e => other (e.symm.trans new))]
      rwa [if_neg (fun e => other (e.symm.trans old))] at cov
  unheld m e := by
    rw [State.sr_setSr] at e ⊢
    split at e
    · next same =>
      rw [if_pos same]
      exact unheld e
    · next other =>
      rw [if_neg other]
      exact h.unheld m e
  bound := by
    rw [State.sr_setSr]
    split
    · next same => exact new.trans (old.symm.trans (same ▸ h.bound))
    · exact h.bound
  admin busy := by
    rw [State.sr_setSr]
    split
    · next same => exact admin same.symm busy
    · exact h.admin busy
  fetch m := by
    rw [State.sr_setSr]
    split
    · next same => exact same ▸ fetch
    · exact h.fetch m
  flight m e := by
    rw [State.sr_setSr] at e ⊢
    split at e
    · next same =>
      rw [if_pos same]
      exact flight e
    · next other =>
      rw [if_neg other]
      exact h.flight m e
  rings := h.rings
  marked d mem := by
    rw [State.sr_setSr]
    split
    · next same => exact Bool.of_not_eq_false fun e => marked e d mem same
    · exact h.marked d mem

/-- A submission ring alone changes, holding as much as before. -/
theorem Covered.setSr {s : State} (h : Covered s) {n : Fin 16} {r : SubRing}
    (bound : r.bound = (s.sr n).bound) (holds : r.holds = (s.sr n).holds)
    (state : r.state = .absent → (s.sr n).state = .absent)
    (admin : n = 0 → s.admin ≠ .idle → ∃ a t, r.head = .admin a t)
    (fetch : s.port.fetches n + (if r.fetchQueued then 1 else 0) ≤ if r.fetchInFlight then 1 else 0)
    (flight : r.fetchInFlight = true → r.head = .empty)
    (marked : r.dispatched = false → ∀ d ∈ s.disp.contexts, d.ring ≠ n) : Covered (s.setSr n r) := by
  have all := h.exchange rfl bound (c := s.cr (s.sr n).bound) (fun x cov => holds ▸ cov)
    (fun e => holds.trans (h.unheld n (e.imp_left state))) admin fetch flight marked
  rwa [setCr_self] at all

/-- A context in the lane or on the stack is one of a marked ring. -/
theorem Covered.ring_ne {s : State} (h : Covered s) {n : Fin 16} (clear : (s.sr n).dispatched = false) :
    ∀ d ∈ s.disp.contexts, d.ring ≠ n := fun d mem e => by
  have := h.marked d mem
  rw [e, clear] at this
  cases this

/-- A submission ring that holds nothing is replaced by one that holds nothing, bound as it may be. -/
theorem Covered.setSr_unheld {s : State} (h : Covered s) {n : Fin 16} {r : SubRing} (old : (s.sr n).holds = 0)
    (new : r.holds = 0) (queued : r.fetchQueued = false) (bound : n = 0 → r.bound = 0) :
    Covered (s.setSr n r) := by
  obtain ⟨empty, noFetch, clear⟩ := (SubRing.holds_eq_zero_iff _).mp old
  obtain ⟨empty', noFetch', -⟩ := (SubRing.holds_eq_zero_iff _).mp new
  have same (k : Fin 8) : (s.setSr n r).holders k = s.holders k := by
    obtain ⟨rest, before, after⟩ := holders_setSr s n r k
    rw [before, after, old, new, ite_self, ite_self]
  exact
    { space := fun k => by
        rw [same k]
        exact h.space k
      unheld := fun m e => by
        rw [State.sr_setSr] at e ⊢
        split at e
        · next eq => rw [if_pos eq, new]
        · next ne => rw [if_neg ne, h.unheld m e]
      bound := by
        rw [State.sr_setSr]
        split
        · next eq => exact bound eq.symm
        · exact h.bound
      admin := fun busy => by
        obtain ⟨a, t, head⟩ := h.admin busy
        rw [State.sr_setSr]
        split
        · next eq => rw [← eq, head] at empty; cases empty
        · exact ⟨a, t, head⟩
      fetch := fun m => by
        rw [State.sr_setSr]
        split
        · next eq =>
          have := h.fetch n
          rw [noFetch] at this
          simp only [queued, noFetch', eq] at this ⊢
          simpa using Nat.le_of_add_right_le this
        · exact h.fetch m
      flight := fun m e => by
        rw [State.sr_setSr] at e ⊢
        split at e
        · next eq => rw [if_pos eq, empty']
        · next ne =>
          rw [if_neg ne]
          exact h.flight m e
      rings := h.rings
      marked := fun d mem => by
        rw [State.sr_setSr_ne _ _ _ _ (h.ring_ne clear d mem)]
        exact h.marked d mem }

/-- A completion ring is replaced by one that covers what is held for it. -/
theorem Covered.setCr {s : State} (h : Covered s) {n : Fin 8} {c : CplRing} (space : c.covered (s.holders n)) :
    Covered (s.setCr n c) where
  space k := by
    rw [State.cr_setCr]
    split
    · next e => exact e ▸ space
    · exact h.space k
  unheld := h.unheld
  bound := h.bound
  admin := h.admin
  fetch := h.fetch
  flight := h.flight
  rings := h.rings
  marked := h.marked

/-- Contexts of different marked rings. -/
theorem Covered.setDisp {s : State} (h : Covered s) {d : Dispatcher}
    (rings : (d.contexts.map (fun c => c.ring)).Nodup)
    (marked : ∀ c ∈ d.contexts, (s.sr c.ring).dispatched = true) : Covered { s with disp := d } :=
  { h with rings := rings, marked := marked }

/-- The Admin Unit is busy while the SR0 head slot holds its command. -/
theorem Covered.setAdmin {s : State} (h : Covered s) {a : AdminState} (head : ∃ r x, (s.sr 0).head = .admin r x) :
    Covered { s with admin := a } :=
  { h with admin := fun _ => head }

/-- The tables as the resets leave them are covered. -/
theorem covered_of_cleared {s : State} (srs : s.srs = Vector.replicate 16 .cleared)
    (crs : s.crs = Vector.replicate 8 .cleared) (admin : s.admin = .idle) (fetches : ∀ n, s.port.fetches n = 0)
    (disp : s.disp = .cleared) : Covered s := by
  have sr (n : Fin 16) : s.sr n = .cleared := by simp [State.sr, srs, Vector.get_eq_getElem]
  have cr (k : Fin 8) : s.cr k = .cleared := by simp [State.cr, crs, Vector.get_eq_getElem]
  have none (k : Fin 8) : s.holders k = 0 := holders_eq_zero fun n _ => by rw [sr]; rfl
  have idle : s.disp.contexts = [] := by rw [disp]; rfl
  exact
    { space := fun k => by
        rw [cr, none]
        exact CplRing.cleared_covered
      unheld := fun n _ => by rw [sr]; rfl
      bound := by rw [sr]; rfl
      admin := fun busy => absurd admin busy
      fetch := fun n => by
        rw [sr, fetches]
        exact le_refl 0
      flight := fun n _ => by rw [sr]; rfl
      rings := by rw [idle]; exact List.nodup_nil
      marked := fun c mem => by rw [idle] at mem; cases mem }

end Sys2Proof.Machine
end

section
/-! PROOFS. Completion space over the shared operations: what each spares, and that a completion, a dispatch, an
admission and the decisions keep the invariant of R14. -/

namespace Sys2Proof.Machine

-- One proof after the other: many at once use up the memory limit.
set_option Elab.async false

/-! ### Operations that spare the reservations -/

theorem spares_unwatch (s : State) (n : Fin 16) (p : Place) : Spares s (s.unwatch n p) := .same

theorem spares_moveWatch (s : State) (n : Fin 16) (p q : Place) : Spares s (s.moveWatch n p q) := .same

theorem spares_watchHead (s : State) (n : Fin 16) (b : Nat) : Spares s (s.watchHead n b) := by
  unfold State.watchHead
  split
  · exact .refl s
  · exact .same

theorem spares_reportFault (s : State) (k : FaultKind) (n : Fin 16) (a : Nat) :
    Spares s (reportFault s k n a) := by
  unfold reportFault
  split <;> exact .same

theorem spares_portLane (s : State) (o : Option Request) (h : ∀ n, fetchOf n o = 0) :
    Spares s { s with port := { s.port with lane := o } } :=
  spares_port fun n => by
    simp only [Port.fetches_eq, h]
    omega

theorem spares_portCompletion (s : State) (o : Option Request) (h : ∀ n, fetchOf n o = 0) :
    Spares s { s with port := { s.port with completion := o } } :=
  spares_port fun n => by
    simp only [Port.fetches_eq, h]
    omega

theorem spares_portAdmin (s : State) (o : Option Request) (h : ∀ n, fetchOf n o = 0) :
    Spares s { s with port := { s.port with admin := o } } :=
  spares_port fun n => by
    simp only [Port.fetches_eq, h]
    omega

theorem spares_lane (s : State) (l : Lane) : Spares s { s with lane := l } := .same

theorem spares_withdrawLane (s : State) : Spares s (withdrawLane s) :=
  (spares_portLane s none fun _ => rfl).trans .same

theorem spares_withdrawAdmin (s : State) : Spares s (withdrawAdmin s) := spares_portAdmin s none fun _ => rfl

theorem spares_withdrawCompletion (s : State) : Spares s (withdrawCompletion s) := by
  have withdrawn := spares_portCompletion s none fun _ => rfl
  unfold withdrawCompletion
  dsimp only
  split
  · exact withdrawn.trans (spares_setCr fun _ cov => cov)
  · exact withdrawn.trans (spares_setCr fun _ cov => cov)
  · exact withdrawn

theorem spares_setEngine (s : State) {e : EngineState} (h : e ≠ .off) : Spares s (s.setEngine e) :=
  spares_ctl fun off => absurd off h

theorem spares_halt (s : State) : Spares s (halt s) := by
  unfold halt
  split
  · exact ((spares_withdrawCompletion s).trans (spares_withdrawAdmin _)).trans (spares_setEngine _ (by decide))
  · exact .refl s

theorem spares_applyPending (s : State) (n : Fin 16) : Spares s (applyPending s n) := by
  unfold applyPending
  split
  · split
    · exact .refl s
    · exact spares_setSr ⟨rfl, id, Iff.rfl, id, rfl, rfl⟩ rfl
  · exact .refl s

theorem SubRing.spares_afterSuccess (r : SubRing) (c : Context) (v : Word32) : r.spares (r.afterSuccess c v) := by
  unfold SubRing.afterSuccess
  split
  · exact ⟨rfl, id, Iff.rfl, id, rfl, rfl⟩
  · split <;> exact ⟨rfl, id, Iff.rfl, id, rfl, rfl⟩

theorem Head.skipped_eq_empty_iff (h : Head) : h.skipped = .empty ↔ h = .empty := by
  unfold Head.skipped
  split
  · split
    · split <;> simp
    · simp
  · rfl

theorem Head.skipped_admin {h : Head} (e : ∃ r x, h = .admin r x) : ∃ r x, h.skipped = .admin r x := by
  obtain ⟨r, x, rfl⟩ := e
  exact ⟨r, x, rfl⟩

theorem SubRing.spares_afterFailure (r : SubRing) (c : Context) : r.spares (r.afterFailure c) := by
  unfold SubRing.afterFailure
  split
  · exact ⟨rfl, id, Head.skipped_eq_empty_iff _, Head.skipped_admin, rfl, rfl⟩
  · exact ⟨rfl, id, Iff.rfl, id, rfl, rfl⟩

theorem SubRing.afterSuccess_fetchQueued (r : SubRing) (c : Context) (v : Word32) :
    (r.afterSuccess c v).fetchQueued = r.fetchQueued := by
  unfold SubRing.afterSuccess
  split
  · rfl
  · split <;> rfl

theorem SubRing.afterFailure_fetchQueued (r : SubRing) (c : Context) :
    (r.afterFailure c).fetchQueued = r.fetchQueued := by
  unfold SubRing.afterFailure
  split <;> rfl

theorem spares_chainAfter (s : State) (c : Context) (st : Status) (v : Word32) :
    Spares s (chainAfter s c st v) := by
  have failed := spares_setSr (SubRing.spares_afterFailure (s.sr c.ring) c) (SubRing.afterFailure_fetchQueued _ c)
  unfold chainAfter
  split
  · exact .refl s
  · split
    · exact spares_setSr (SubRing.spares_afterSuccess _ c v) (SubRing.afterSuccess_fetchQueued _ c v)
    · dsimp only
      split
      · exact failed
      · exact failed.trans (spares_unwatch _ _ _)

theorem spares_takeCredit (s : State) (f : Fields) : Spares s (takeCredit s f) := by
  unfold takeCredit
  split
  · exact .same
  · exact .refl s

theorem spares_presentUnit (s : State) : Spares s (presentUnit s) := by
  have unit (n : Fin 16) (k : Nat) (c : Context) (g : Segment) (u : TransferUnit) :
      fetchOf n (some (readRequest c g k u)) = 0 := by simp [fetchOf_some, readRequest]
  have unit' (n : Fin 16) (k : Nat) (c : Context) (g : Segment) (b : List Byte) (u : TransferUnit) :
      fetchOf n (some (writeRequest c g b k u)) = 0 := by simp [fetchOf_some, writeRequest]
  unfold presentUnit
  split
  · split
    · exact (spares_portLane s _ fun n => unit n _ _ _ _).trans .same
    · exact .refl s
  · split
    · exact (spares_portLane s _ fun n => unit' n _ _ _ _ _).trans .same
    · exact .refl s
  · exact .refl s

theorem spares_startSegment (s : State) : Spares s (startSegment s) := by
  unfold startSegment
  split
  · exact (spares_lane s _).trans (spares_presentUnit _)
  · exact .refl s

/-- The active context moves to the top of the stack (R56). -/
theorem spares_push {s : State} {c : Context} (h : s.disp.active = some c) : Spares s (push s c) := by
  have moved : Spares s { s with
      disp := { s.disp with active := none, stack := { c with preempted := true } :: s.disp.stack } } :=
    spares_disp (by simp [Dispatcher.contexts, h])
  exact moved.trans .same

theorem spares_resumeTop (s : State) : Spares s (resumeTop s) := by
  unfold resumeTop
  split
  · next c rest top =>
    have moved : Spares s { s with disp := { s.disp with active := some c, stack := rest } } :=
      spares_disp (by simp [Dispatcher.contexts, top])
    refine Spares.trans ?_ (spares_startSegment _)
    exact moved.trans .same
  · exact .refl s

theorem spares_presentFetch (s : State) : Spares s (presentFetch s) := by
  unfold presentFetch
  split
  · exact .refl s
  · next none_ =>
    split
    · next n found =>
      have queued : (s.sr n).fetchQueued = true := by simpa using List.find?_some found
      refine
        { crs := fun _ _ => id
          srs := fun m => ?_
          engine := id
          admin := id
          fetches := fun m => ?_
          contexts := List.Sublist.refl _ }
      · show (s.sr m).spares ((s.setSr n _).sr m)
        rw [State.sr_setSr]
        split
        · next e => exact e ▸ ⟨rfl, id, Iff.rfl, id, rfl, rfl⟩
        · exact SubRing.spares_refl _
      · show Port.fetches _ m + (if ((s.setSr n _).sr m).fetchQueued then 1 else 0) ≤ _
        rw [State.sr_setSr]
        simp only [Port.fetches_eq, none_, fetchOf_none, fetchOf_some, fetchRequest,
          TransactionKind.recordFetch.injEq]
        rcases eq_or_ne m n with rfl | other
        · simp [queued, Nat.add_comm]
        · simp [other, other.symm]
    · exact .refl s

/-! ### Completions -/

theorem unwatch_setSr (s : State) (n m : Fin 16) (p : Place) (r : SubRing) :
    (s.unwatch m p).setSr n r = (s.setSr n r).unwatch m p := rfl

/-- The head slot holds one reservation. -/
theorem SubRing.holds_of_head {r : SubRing} (h : r.head ≠ .empty) :
    r.holds = ({ r with head := .empty } : SubRing).holds + 1 := by
  simp only [SubRing.holds, h, if_true, if_false]
  omega

/-- A completion is produced into the bound ring while its submission ring gives up one hold (R15). -/
theorem Covered.complete {s : State} (h : Covered s) {n : Fin 16} {r : SubRing} (rec : CplRecord)
    (bound : r.bound = (s.sr n).bound) (holds : (s.sr n).holds = r.holds + 1)
    (state : r.state = (s.sr n).state) (flight : r.fetchInFlight = (s.sr n).fetchInFlight)
    (queued : r.fetchQueued = (s.sr n).fetchQueued) (head : r.head = .empty ∨ r.head = (s.sr n).head)
    (admin : n = 0 → s.admin ≠ .idle → ∃ a t, r.head = .admin a t)
    (marked : r.dispatched = false → ∀ d ∈ s.disp.contexts, d.ring ≠ n) :
    Covered ((produce s (s.sr n).bound rec).setSr n r) := by
  rw [produce_eq]
  refine h.exchange rfl bound (fun x cov => CplRing.covered.produced (by rwa [holds, ← Nat.add_assoc] at cov) rec) (fun e => ?_) admin ?_ ?_
    marked
  · have := h.unheld n (state ▸ e)
    omega
  · rw [flight, queued]
    exact h.fetch n
  · intro e
    rcases head with none | same
    · exact none
    · rw [same]
      exact h.flight n (flight ▸ e)

/-- A head that is not an administrative command is one with which the Admin Unit is idle. -/
theorem Covered.idle_of_transfer {s : State} (h : Covered s) {n : Fin 16} {c : HeadCmd}
    (head : (s.sr n).head = .transfer c) (zero : n = 0) : s.admin = .idle := by
  by_contra busy
  obtain ⟨r, a, admin⟩ := h.admin busy
  rw [zero, admin] at head
  cases head

theorem Covered.drainHead {s : State} (h : Covered s) (n : Fin 16) : Covered (drainHead s n) := by
  unfold Machine.drainHead
  dsimp only
  split
  · next c head =>
    split
    · split
      · exact h.complete _ rfl (SubRing.holds_of_head (by simp [head])) rfl rfl rfl (.inl rfl)
          (fun zero busy => absurd (h.idle_of_transfer head zero) busy) (fun clear => h.ring_ne clear)
      · exact h
    · exact h
  · exact h

theorem Covered.endDispatched {s : State} (h : Covered s) {c : Context}
    (held : (s.sr c.ring).dispatched = true) (only : ∀ d ∈ s.disp.contexts, d.ring ≠ c.ring) (st : Status)
    (v : Word32) : Covered (endDispatched s c st v) := by
  unfold Machine.endDispatched
  dsimp only
  simp only [unwatch_setSr]
  have produced := h.complete (n := c.ring) (r := { s.sr c.ring with dispatched := false })
    (contextRecord (s.sr c.ring) c st v) rfl (by simp [SubRing.holds, held]) rfl rfl rfl (.inr rfl)
    (fun zero busy => by simpa [zero] using h.admin busy) (fun _ => only)
  exact (Covered.drainHead (produced.spares (((spares_unwatch _ _ _).trans (spares_unwatch _ _ _)).trans
    (spares_chainAfter _ c st v))) _).spares (spares_applyPending _ _)

theorem finishAdmin_eq (s : State) (st : Status) (v : Nat) :
    finishAdmin s st v = (produce { s with admin := .idle } 0 (adminRecord s st v)).setSr 0
      { s.sr 0 with head := .empty } := by
  simp only [finishAdmin, produce_eq]
  rfl

theorem Covered.finishAdmin {s : State} (h : Covered s) (busy : s.admin ≠ .idle) (st : Status) (v : Nat) :
    Covered (finishAdmin s st v) := by
  obtain ⟨r, a, head⟩ := h.admin busy
  have idle : Covered { s with admin := .idle } := h.spares (spares_admin fun e => absurd rfl e)
  have bound : ({ s with admin := .idle } : State).sr 0 = s.sr 0 := rfl
  rw [finishAdmin_eq, ← h.bound, ← bound]
  exact idle.complete _ rfl (SubRing.holds_of_head (by simp [bound, head])) rfl rfl rfl (.inl rfl)
    (fun _ e => absurd rfl e) (fun clear => idle.ring_ne clear)

/-! ### The closing of ABORT_SR -/

theorem Covered.abortHead {s : State} (h : Covered s) (n : Fin 16) : Covered (abortHead s n) := by
  unfold Machine.abortHead
  dsimp only
  split
  · next c head =>
    split
    · rw [unwatch_setSr]
      refine Covered.spares ?_ (spares_unwatch _ _ _)
      exact h.complete _ rfl (SubRing.holds_of_head (by simp [head])) rfl rfl rfl (.inl rfl)
        (fun zero busy => absurd (h.idle_of_transfer head zero) busy) (fun clear => h.ring_ne clear)
    · exact h.drainHead n
  · exact h

theorem spares_abortRing (s : State) (n : Fin 16) (e : Bool) : Spares s (abortRing s n e) := by
  have skipped : Spares s (s.setSr n { s.sr n with
      consumer := (s.sr n).producer, link := .unlinked, carry := .closed }) :=
    spares_setSr ⟨rfl, id, Iff.rfl, id, rfl, rfl⟩ rfl
  have ended (u : State) : Spares u (u.setSr n { u.sr n with state := if e then .faulted else .paused }) :=
    spares_setSr ⟨rfl, fun absent => (by cases e <;> cases absent), Iff.rfl, id, rfl, rfl⟩ rfl
  exact (skipped.trans (spares_applyPending _ n)).trans (ended _)

@[simp] theorem produce_admin (s : State) (k : Fin 8) (rec : CplRecord) : (produce s k rec).admin = s.admin := by
  rw [produce_eq]
  rfl

@[simp] theorem applyPending_admin (s : State) (n : Fin 16) : (applyPending s n).admin = s.admin := by
  unfold applyPending
  split
  · split <;> rfl
  · rfl

@[simp] theorem drainHead_admin (s : State) (n : Fin 16) : (drainHead s n).admin = s.admin := by
  unfold drainHead
  dsimp only
  split
  · split
    · split
      · simp
      · rfl
    · rfl
  · rfl

@[simp] theorem abortHead_admin (s : State) (n : Fin 16) : (abortHead s n).admin = s.admin := by
  unfold abortHead
  dsimp only
  split
  · split <;> simp
  · rfl

@[simp] theorem abortRing_admin (s : State) (n : Fin 16) (e : Bool) : (abortRing s n e).admin = s.admin := by
  simp [abortRing]

theorem Covered.abortClose {s : State} (h : Covered s) : Covered (abortClose s) := by
  unfold Machine.abortClose
  split
  · next n e waits =>
    split
    · have closed := (h.abortHead n).spares (spares_abortRing _ n e)
      exact closed.spares (spares_admin fun _ => by simp [waits])
    · exact h
  · exact h

theorem Covered.abortFinish {s : State} (h : Covered s) : Covered (abortFinish s) := by
  unfold Machine.abortFinish
  split
  · next n k waits =>
    split
    · exact h.finishAdmin (by rw [waits]; exact AdminState.noConfusion) _ _
    · exact h
  · exact h

theorem Covered.closeAbort {s : State} (h : Covered s) : Covered (closeAbort s) := h.abortClose.abortFinish

/-! ### Dispatch and the decisions -/

theorem candidate_of_best {s : State} {n : Fin 16} (h : s.best = some n) : s.candidate n = true := by
  have candidate_of_at {p : Fin 8} (at_ : s.candidateAt p n = true) : s.candidate n = true := by
    simp only [State.candidateAt, Bool.and_eq_true] at at_
    exact at_.1
  unfold State.best at h
  split at h
  · unfold State.bestAt at h
    split at h
    · next found =>
      cases h
      have both := List.find?_some found
      simp only [Bool.and_eq_true] at both
      exact candidate_of_at both.1
    · exact candidate_of_at (List.find?_some h)
  · cases h

/-- The head that is dispatched is one of a ring without a dispatched command (R49). -/
theorem undispatched_of_best {s : State} {n : Fin 16} (h : s.best = some n) : (s.sr n).dispatched = false := by
  have candidate := candidate_of_best h
  simp only [State.candidate, State.dispatchable, Bool.and_eq_true, Bool.not_eq_true'] at candidate
  tauto

/-- The hold of the head slot becomes that of the dispatched command, whose context is the only one of its ring. -/
theorem Covered.dispatch {s : State} (h : Covered s) {n : Fin 16} (clear : (s.sr n).dispatched = false) :
    Covered (dispatch s n) := by
  unfold Machine.dispatch
  dsimp only
  split
  · next c head =>
    split
    · have flight : (s.sr n).fetchInFlight = true → (s.sr n).head = .empty := h.flight n
      have placed : Covered (s.setSr n { s.sr n with head := .empty, dispatched := true }) :=
        h.setSr rfl (by simp [SubRing.holds, head, clear]; omega) id
          (fun zero busy => absurd (h.idle_of_transfer head zero) busy) (h.fetch n) (fun _ => rfl)
          (fun e => by cases e)
      have spent := placed.spares ((spares_takeCredit _ c.fields).trans (spares_moveWatch _ n .head .active))
      have stack : (s.disp.stack.map (fun d => d.ring)).Nodup :=
        h.rings.sublist (by simp [Dispatcher.contexts])
      have others : ∀ d ∈ s.disp.stack, d.ring ≠ n := fun d mem =>
        h.ring_ne clear d (by simp [Dispatcher.contexts, mem])
      refine spent.setDisp ?_ ?_
      · simp only [Dispatcher.contexts, takeCredit_disp, State.setSr_disp, newContext,
          Option.toList_some, List.singleton_append, List.map_cons, List.nodup_cons, List.mem_map]
        exact ⟨fun ⟨d, mem, e⟩ => others d mem e, stack⟩
      · intro d mem
        have srs : (((takeCredit (s.setSr n { s.sr n with head := .empty, dispatched := true }) c.fields).moveWatch n
            .head .active).sr d.ring) = (s.setSr n { s.sr n with head := .empty, dispatched := true }).sr d.ring := by
          unfold takeCredit
          split <;> rfl
        simp only [Dispatcher.contexts, takeCredit_disp, State.setSr_disp,
          Option.toList_some, List.singleton_append, List.mem_cons] at mem
        rw [srs]
        rcases mem with rfl | mem
        · exact (State.sr_setSr_self s n _).symm ▸ rfl
        · rw [State.sr_setSr_ne _ _ _ _ (others d mem)]
          exact h.marked d (by simp [Dispatcher.contexts, mem])
    · exact h
  · exact h

/-- The active context leaves the lane: what is left is the stack. -/
theorem Covered.endActive {s : State} (h : Covered s) {c : Context} (active : s.disp.active = some c) (st : Status)
    (v : Word32) : Covered (endActive s c st v) := by
  have left : Spares s { s with disp := { s.disp with active := none } } :=
    spares_disp (by simp [Dispatcher.contexts])
  have rings := h.rings
  simp only [Dispatcher.contexts, active, Option.toList_some, List.singleton_append, List.map_cons,
    List.nodup_cons, List.mem_map, not_exists, not_and] at rings
  refine Covered.closeAbort (Covered.endDispatched ((h.spares left).spares (spares_lane _ .cleared)) ?_ ?_ st v)
  · exact h.marked c (by simp [Dispatcher.contexts, active])
  · intro d mem
    exact rings.1 d (by simpa [Dispatcher.contexts] using mem)

theorem Covered.startOrMark {next : State → State} (hn : ∀ {s}, Covered s → Covered (next s)) {s : State}
    (h : Covered s) : Covered (startOrMark next s) := by
  unfold Machine.startOrMark
  split
  · next c active =>
    split
    · exact hn (h.endActive active _ _)
    · exact h.spares (spares_startSegment s)
  · exact h

theorem Covered.decisionC (k : Nat) : ∀ {s : State}, Covered s → Covered (decisionC k s) := by
  induction k with
  | zero => exact id
  | succ k ih =>
    intro s h
    unfold Machine.decisionC
    split
    · exact h
    · exact h.spares (spares_resumeTop s)
    · next best _ => exact (h.dispatch (undispatched_of_best best)).startOrMark ih
    · next best _ =>
      split
      · exact (h.dispatch (undispatched_of_best best)).startOrMark ih
      · exact h.spares (spares_resumeTop s)

theorem Covered.decisionA {s : State} (h : Covered s) : Covered (decisionA s) := by
  unfold Machine.decisionA
  split
  · exact h.decisionC _
  · exact h

theorem Covered.afterEnd {s : State} (h : Covered s) : Covered (afterEnd s) := by
  unfold Machine.afterEnd
  split
  · exact h.decisionC _
  · exact h.spares (spares_setEngine s (by decide))
  · exact h

theorem Covered.decisionB {s : State} (h : Covered s) {c : Context} (active : s.disp.active = some c) :
    Covered (decisionB s c) := by
  have pushed := h.spares (spares_push active)
  have goesOn := h.spares (spares_startSegment s)
  unfold Machine.decisionB
  split
  · split
    · exact goesOn
    · split
      · next n best =>
        split
        · exact (pushed.dispatch (n := n) (undispatched_of_best best)).startOrMark (Covered.decisionC _)
        · exact goesOn
      · exact goesOn
  · split
    · exact goesOn
    · exact pushed.spares (spares_setEngine _ (by decide))
  · exact h.spares (spares_lane s _)

/-- The removed context is one of the stack, and the only one of its ring (R58). -/
theorem Covered.removeSuspended {s : State} (h : Covered s) {c : Context} (mem : c ∈ s.disp.stack)
    (idle : ∀ a, s.disp.active = some a → a.ring ≠ c.ring) (st : Status) : Covered (removeSuspended s c st) := by
  have left : Spares s { s with disp := { s.disp with stack := s.disp.stack.filter (fun d => d.ring ≠ c.ring) } } :=
    spares_disp (by
      simp only [Dispatcher.contexts, List.map_append]
      exact (List.Sublist.refl _).append (List.filter_sublist.map _))
  refine Covered.endDispatched (h.spares left) (h.marked c (by simp [Dispatcher.contexts, mem])) ?_ st 0
  intro d memd
  simp only [Dispatcher.contexts, List.mem_append, Option.mem_toList, List.mem_filter, decide_eq_true_eq] at memd
  rcases memd with active | ⟨-, other⟩
  · exact idle d active
  · exact other

theorem Covered.settleRing {s : State} (h : Covered s) (n : Fin 16) : Covered (settleRing s n) :=
  (((h.drainHead n).spares (spares_applyPending _ n)).closeAbort).decisionA

end Sys2Proof.Machine
end

section
/-! PROOFS. Completion space over the rows: the lane, the Ring Fetch Unit, the Completion Unit, the Admin Unit, the
port and the resets keep the invariant of R14, and with them every step (O59). The reset state meets this and the
other invariants (O52). -/

open Sys2Proof.Claims

namespace Sys2Proof.Machine

-- One proof after the other: many at once use up the memory limit.
set_option Elab.async false

/-! ### The lane -/

theorem Covered.boundaryOf {s : State} (h : Covered s) {c : Context} (g : Segment)
    (active : s.disp.active = some c) : Covered (boundaryOf s c g) := by
  have advanced : Covered { s with disp := { s.disp with
      active := some (c.advance g.length (s.lane.buffer1.take g.length)) } } :=
    h.spares (spares_disp (by simp [Dispatcher.contexts, active, Context.advance]))
  unfold Machine.boundaryOf
  split
  · exact (h.endActive active _ _).afterEnd
  · exact (h.endActive active _ _).afterEnd
  · dsimp only
    split
    · exact (advanced.endActive rfl _ _).afterEnd
    · exact advanced.decisionB rfl

theorem Covered.boundary {s : State} (h : Covered s) : Covered (boundary s) := by
  unfold Machine.boundary
  split
  · next active _ => exact h.boundaryOf _ active
  · exact h

theorem Covered.endReading {s : State} (h : Covered s) : Covered (endReading s) := by
  unfold Machine.endReading
  split
  · split
    · split
      · exact h.spares ((spares_lane s _).trans (spares_presentUnit _))
      · exact h.boundary
    · exact h
  · exact h

theorem Covered.endWriting {s : State} (h : Covered s) : Covered (endWriting s) := by
  unfold Machine.endWriting
  split
  · split
    · exact h.boundary
    · exact h
  · exact h

theorem spares_countSubstituted (s : State) (m : Mapping) (b : Nat) : Spares s (countSubstituted s m b) := by
  unfold countSubstituted
  split
  · exact .refl s
  · have marked : Spares s { s with disp := { s.disp with
        active := s.disp.active.map (fun c => { c with substituted := true }) } } :=
      spares_disp (by cases e : s.disp.active <;> simp [Dispatcher.contexts, e])
    exact marked.trans .same

theorem Covered.readAnswered {s : State} (h : Covered s) (k : Nat) (a : ReadAnswer) :
    Covered (readAnswered s k a) := by
  unfold Machine.readAnswered
  split
  · split
    · split
      · dsimp only
        split
        · exact (h.spares ((spares_lane s _).trans (spares_countSubstituted _ _ _))).endReading
        · exact (h.spares (spares_lane s _)).endReading
      · exact (h.spares ((spares_lane s _).trans (spares_withdrawLane _))).endReading
    · exact h
  · exact h

theorem Covered.writeAnswered {s : State} (h : Covered s) (k : Nat) (ok : Bool) :
    Covered (writeAnswered s k ok) := by
  unfold Machine.writeAnswered
  split
  · split
    · exact (h.spares (spares_lane s _)).endWriting
    · exact (h.spares ((spares_lane s _).trans (spares_withdrawLane _))).endWriting
  · exact h

/-! ### The Ring Fetch Unit -/

/-- An admission holds one reservation more, for a fetch that waits to be presented (R8). -/
theorem Covered.beginAdmission {s : State} (h : Covered s) {n : Fin 16} (eligible : s.eligible n = true) :
    Covered (beginAdmission s n) := by
  simp only [State.eligible, Bool.and_eq_true, decide_eq_true_eq, Bool.not_eq_true'] at eligible
  obtain ⟨⟨⟨⟨⟨⟨active, -⟩, isEmpty⟩, noFetch⟩, crActive⟩, free⟩, works⟩ := eligible
  have empty : (s.sr n).head = .empty := by
    cases e : (s.sr n).head <;> simp_all [Head.isEmpty]
  have unfetched := h.fetch n
  rw [noFetch] at unfetched
  have begun : Covered ((s.setCr (s.sr n).bound { s.cr (s.sr n).bound with
      reserved := (s.cr (s.sr n).bound).reserved + 1
      lastTaker := if n = 0 then (s.cr (s.sr n).bound).lastTaker else n }).setSr n
        { s.sr n with fetchInFlight := true, fetchQueued := true }) := by
    refine h.exchange rfl rfl (fun x cov => ?_) (fun off => ?_)
      (fun zero busy => by simpa [zero] using h.admin busy) ?_ (fun _ => empty) (fun clear => h.ring_ne clear)
    · have more : ({ s.sr n with fetchInFlight := true, fetchQueued := true } : SubRing).holds =
          (s.sr n).holds + 1 := by
        simp only [SubRing.holds, empty, noFetch]
        simp
        omega
      rw [more, ← Nat.add_assoc]
      exact cov.reserve crActive free _
    · rcases off with absent | off
      · exact absurd (active.symm.trans absent) (by decide)
      · simp [State.works, off] at works
    · have none_ := Nat.le_zero.mp unfetched
      have := Nat.le_of_add_right_le unfetched
      simpa using this
  exact begun.spares (spares_presentFetch _)

/-- Once its answer has left the list, the fetch that was in flight is neither presented nor outstanding. -/
theorem Covered.fetch_over {s : State} (h : Covered s) {n : Fin 16} {p : Port}
    (fewer : p.fetches n < s.port.fetches n) :
    p.fetches n = 0 ∧ (s.sr n).fetchQueued = false ∧ (s.sr n).fetchInFlight = true := by
  have bound := h.fetch n
  cases queued : (s.sr n).fetchQueued <;> cases flight : (s.sr n).fetchInFlight <;>
    simp only [queued, flight, if_true, Bool.false_eq_true, if_false] at bound <;> simp <;> omega

/-- The one fetch of ring n has been answered: its marker is still set (R8, R10). -/
def fetchAnswered (s : State) (n : Fin 16) : Prop :=
  s.port.fetches n = 0 ∧ (s.sr n).fetchQueued = false ∧ (s.sr n).fetchInFlight = true

/-- The hold of a fetch in flight becomes that of the head slot. -/
theorem Covered.place {s : State} (h : Covered s) {n : Fin 16} (answered : fetchAnswered s n) (head : Head)
    (filled : head ≠ .empty) (consumer : Nat) (link : ChainLink)
    (admin : n = 0 → s.admin ≠ .idle → ∃ a t, head = .admin a t) :
    Covered (s.setSr n { s.sr n with
      head := head, consumer := consumer, fetchInFlight := false, link := link }) := by
  obtain ⟨fetched, queued, flight⟩ := answered
  have empty := h.flight n flight
  refine h.setSr rfl ?_ id admin ?_ (fun e => by cases e) (fun clear => h.ring_ne clear)
  · simp only [SubRing.holds, filled, empty, flight, if_true, if_false, Bool.false_eq_true]
  · simp [fetched, queued]

theorem Covered.placeTransfer {s : State} (h : Covered s) {n : Fin 16} (answered : fetchAnswered s n)
    (transfer : n ≠ 0) (record : Line) : Covered (placeTransfer s n record) := by
  have placed := h.place answered (.transfer (headOf record (s.sr n).link s.time.tick)) (by simp)
    (((s.sr n).consumer + 1) % (s.sr n).size) (linkAfter (headOf record (s.sr n).link s.time.tick).settlement
      (headOf record (s.sr n).link s.time.tick).fields.flags.chain) (fun zero => absurd zero transfer)
  unfold Machine.placeTransfer
  dsimp only
  split
  · exact placed.spares (spares_watchHead _ _ _)
  · exact placed

theorem Covered.placeAdmin {s : State} (h : Covered s) (answered : fetchAnswered s 0) (record : Line) :
    Covered (placeAdmin s record) :=
  h.place answered (.admin record s.time.tick) (by simp) _ (s.sr 0).link fun _ _ => ⟨_, _, rfl⟩

theorem placeAdmin_head (s : State) (record : Line) :
    ∃ r a, ((placeAdmin s record).sr 0).head = .admin r a :=
  ⟨record, s.time.tick, by simp [Machine.placeAdmin]⟩

theorem AdminState.afterFetchError_eq_idle_iff (a : AdminState) (n : Fin 16) :
    a.afterFetchError n = .idle ↔ a = .idle := by
  cases a <;> simp [AdminState.afterFetchError]

/-- A failed fetch gives its reservation back (R11). -/
theorem Covered.failFetch {s : State} (h : Covered s) {n : Fin 16} (answered : fetchAnswered s n) :
    Covered (failFetch s n) := by
  obtain ⟨fetched, queued, flight⟩ := answered
  have empty := h.flight n flight
  have failed : Covered ((s.setCr (s.sr n).bound { s.cr (s.sr n).bound with
      reserved := (s.cr (s.sr n).bound).reserved - 1 }).setSr n
        { s.sr n with fetchInFlight := false, state := (s.sr n).state.afterFetchError }) := by
    have less : (s.sr n).holds = ({ s.sr n with
        fetchInFlight := false, state := (s.sr n).state.afterFetchError } : SubRing).holds + 1 := by
      simp only [SubRing.holds, empty, flight, if_true, if_false, Bool.false_eq_true]
      omega
    refine h.exchange rfl rfl (fun x cov => ?_) (fun off => ?_)
      (fun zero busy => by simpa [zero] using h.admin busy) (by simp [fetched, queued]) (fun e => by cases e)
      (fun clear => h.ring_ne clear)
    · rw [less, ← Nat.add_assoc] at cov
      exact cov.giveBack
    · have none_ := h.unheld n (off.imp_left fun absent => by
        unfold SrState.afterFetchError at absent
        split at absent <;> cases absent)
      omega
  have noted := failed.spares (spares_admin (a := s.admin.afterFetchError n)
    fun e => by simpa [AdminState.afterFetchError_eq_idle_iff] using e)
  unfold Machine.failFetch
  dsimp only
  split
  · exact noted.spares ((spares_reportFault _ _ _ _).trans (spares_halt _))
  · exact ((noted.spares (spares_reportFault _ _ _ _)).closeAbort).decisionA

/-! ### The Completion Unit -/

theorem spares_presentRecord (s : State) (n : Fin 8) : Spares s (presentRecord s n) := by
  have marked : Spares s (s.setCr n { s.cr n with recordWrite := true }) := spares_setCr fun _ cov => cov
  exact (marked.trans (spares_portCompletion _ (some (recordRequest n (s.cr n)))
    fun _ => by simp [fetchOf_some, recordRequest])).trans .same

theorem spares_presentMessage (s : State) (n : Fin 8) : Spares s (presentMessage s n) := by
  have marked : Spares s (s.setCr n { s.cr n with message := .inFlight }) := spares_setCr fun _ cov => cov
  exact (marked.trans (spares_portCompletion _ (some (messageRequest n (s.vectorOf n)))
    fun _ => by simp [fetchOf_some, messageRequest])).trans .same

theorem spares_presentCompletion (s : State) : Spares s (presentCompletion s) := by
  unfold presentCompletion
  split
  · exact .refl s
  · split
    · split
      · exact spares_presentMessage s _
      · exact spares_presentRecord s _
    · exact .refl s

theorem spares_setLeftWrite (s : State) (n : Fin 8) (b : Bool) : Spares s (s.setLeftWrite n b) := .same

theorem Covered.recordWritten {s : State} (h : Covered s) (n : Fin 8) : Covered (recordWritten s n) := by
  unfold Machine.recordWritten
  split
  · exact h.spares (spares_setLeftWrite s n false)
  · split
    · exact (h.spares (spares_setCr fun _ cov => cov.retired)).abortFinish
    · exact (h.spares (spares_setCr fun _ cov => cov.written _)).abortFinish

theorem Covered.recordFailed {s : State} (h : Covered s) (n : Fin 8) : Covered (recordFailed s n) := by
  have faulted : Covered (s.setCr n (s.cr n).faultedRing) := h.spares (spares_setCr fun _ cov => cov.faultedRing)
  unfold Machine.recordFailed
  split
  · exact h.spares (spares_setLeftWrite s n false)
  · split
    · exact (h.spares (spares_setCr fun _ cov => cov.retired)).abortFinish
    · dsimp only
      split
      · exact faulted.spares ((spares_reportFault _ _ _ _).trans (spares_halt _))
      · exact (faulted.spares (spares_reportFault _ _ _ _)).abortFinish

theorem spares_messageWritten (s : State) (n : Fin 8) : Spares s (messageWritten s n) := by
  unfold messageWritten
  split
  · exact spares_setLeftWrite s n false
  · split
    · exact spares_setCr fun _ cov => cov
    · exact spares_setCr fun _ cov => cov

theorem spares_messageFailed (s : State) (n : Fin 8) (a : Nat) : Spares s (messageFailed s n a) := by
  unfold messageFailed
  split
  · exact spares_setLeftWrite s n false
  · split
    · exact spares_setCr fun _ cov => cov
    · exact (spares_setCr (c := (s.cr n).messaged) fun _ cov => cov).trans (spares_reportFault _ _ _ _)

/-! ### NOTIFY -/

theorem spares_tailUpdate (s : State) (n : Fin 16) (x : Nat) : Spares s (tailUpdate s n x) := by
  unfold tailUpdate
  split
  · exact .refl s
  · split
    · exact spares_reportFault _ _ _ _
    · split
      · exact spares_reportFault _ _ _ _
      · exact spares_setSr ⟨rfl, id, Iff.rfl, id, rfl, rfl⟩ rfl

theorem spares_headUpdate (s : State) (n : Fin 16) (x : Nat) (arm : Bool) : Spares s (headUpdate s n x arm) := by
  unfold headUpdate
  split
  · exact .refl s
  · split
    · dsimp only
      split
      · exact spares_reportFault _ _ _ _
      · split
        · exact spares_reportFault _ _ _ _
        · next takes =>
          refine spares_setCr fun y cov => ?_
          have consumed := cov.consume (by simpa using takes)
          cases arm with
          | false => exact consumed
          | true => exact consumed.arm _
    · exact spares_reportFault _ _ _ _

theorem spares_writeNotify (s : State) (v : Word32) : Spares s (writeNotify s v) := by
  unfold writeNotify
  split
  · exact spares_headUpdate s _ _ _
  · exact spares_tailUpdate s _ _
  · exact .refl s

/-! ### Administrative commands -/

theorem mem_transferSr (n : Fin 16) : n ∈ transferSr ↔ n ≠ 0 := by
  revert n
  decide

theorem isBound_iff (s : State) (k : Fin 8) :
    s.isBound k = true ↔ ∃ n, n ≠ 0 ∧ (s.sr n).state ≠ .absent ∧ (s.sr n).bound = k := by
  simp only [State.isBound, List.any_eq_true, mem_transferSr, Bool.and_eq_true, decide_eq_true_eq, ne_eq]

theorem crId_ne_zero {r : Line} {off : Nat} (fits : crIdFits r off = true) : crId r off ≠ 0 := by
  simp only [crIdFits, Bool.and_eq_true, decide_eq_true_eq] at fits
  intro zero
  have := congrArg Fin.val zero
  simp only [crId, finOf, Fin.val_zero] at this
  omega

theorem srId_ne_zero {r : Line} (fits : srIdFits r = true) : srId r ≠ 0 := by
  simp only [srIdFits, Bool.and_eq_true, decide_eq_true_eq] at fits
  intro zero
  have := congrArg Fin.val zero
  simp only [srId, finOf, Fin.val_zero] at this
  omega

/-- A quiet ring holds nothing (R143, R150). -/
theorem SubRing.holds_of_quiet {r : SubRing} (h : r.quiet = true) : r.holds = 0 := by
  simp only [SubRing.quiet, Bool.and_eq_true, Bool.not_eq_true'] at h
  obtain ⟨⟨⟨-, isEmpty⟩, noFetch⟩, clear⟩ := h
  have empty : r.head = .empty := by
    cases e : r.head <;> simp_all [Head.isEmpty]
  exact r.holds_eq_zero_iff.mpr ⟨empty, noFetch, clear⟩

/-- A completion ring to which no ring that exists is bound has nothing held for it (R141). -/
theorem Covered.holders_of_unbound {s : State} (h : Covered s) {k : Fin 8} (zero : k ≠ 0)
    (unbound : ¬ s.isBound k = true) : s.holders k = 0 := by
  simp only [isBound_iff, not_exists, not_and] at unbound
  refine holders_eq_zero fun n bound => ?_
  have transfer : n ≠ 0 := fun e => zero (by rw [← bound, e, h.bound])
  exact h.unheld n (.inl (by_contra fun present => unbound n transfer present bound))

theorem spares_setState {s : State} {n : Fin 16} {st : SrState} (h : st ≠ .absent) :
    Spares s (s.setSr n { s.sr n with state := st }) :=
  spares_setSr ⟨rfl, fun e => absurd e h, Iff.rfl, id, rfl, rfl⟩ rfl

theorem spares_setStates {st : SrState} (h : st ≠ .absent) (ns : List (Fin 16)) :
    ∀ s, Spares s (setStates st s ns) := by
  induction ns with
  | nil => exact Spares.refl
  | cons n ns ih => exact fun s => (spares_setState h).trans (ih _)

theorem setStates_admin (st : SrState) (ns : List (Fin 16)) (s : State) : (setStates st s ns).admin = s.admin := by
  rw [(setStates_sr st ns s).2]

/-- Step 3 of R146 keeps the invariant: it removes a context of the stack, or marks the active one. -/
theorem Covered.abortDispatched {s : State} (h : Covered s) (n : Fin 16) : Covered (abortDispatched s n) := by
  unfold Machine.abortDispatched
  split
  · next c active =>
    split
    · exact h.spares (spares_disp (by simp [Dispatcher.contexts, active, Context.requested]))
    · next other =>
      split
      · next d found =>
        have ring : d.ring = n := by simpa using List.find?_some found
        refine h.removeSuspended (List.mem_of_find?_eq_some found) (fun a e => ?_) _
        rw [active] at e
        cases e
        exact ring ▸ other
      · exact h
  · next idle =>
    split
    · next d found =>
      exact h.removeSuspended (List.mem_of_find?_eq_some found) (fun a e => by rw [idle] at e; cases e) _
    · exact h

theorem spares_setWin (s : State) (i : Fin 8) (w : Window) : Spares s (s.setWin i w) := .same

theorem spares_setTrig (s : State) (i : Fin 8) (l : TriggerLine) : Spares s (s.setTrig i l) := .same

section Admin

variable {s : State} (h : Covered s) (busy : s.admin ≠ .idle)
include h busy

theorem Covered.adminChecked {op : AdminOp} {r : Line} {fits : Bool} {body : State}
    (run : fits = true → Covered body) : Covered (adminChecked op r fits s body) := by
  unfold Machine.adminChecked
  split
  · next ok => exact run (by simp_all)
  · exact h.finishAdmin busy _ _

/-- A refused command only completes. -/
theorem Covered.refused {p : Prop} [Decidable p] {st : Status} {body : State} (run : ¬ p → Covered body) :
    Covered (if p then Machine.finishAdmin s st 0 else body) := by
  split
  · exact h.finishAdmin busy _ _
  · next np => exact run np

omit h in
/-- A command whose effect keeps the invariant completes. -/
theorem Covered.done {t : State} (k : Covered t) (same : t.admin = s.admin) (st : Status) (v : Nat) :
    Covered (Machine.finishAdmin t st v) := k.finishAdmin (same ▸ busy) st v

theorem Covered.runCreateCr (r : Line) : Covered (runCreateCr r s) := by
  refine h.adminChecked busy fun _ => h.refused busy fun absent => ?_
  have created := h.spares (spares_setCr (n := crId r 12) (c := createdCr r) fun _ cov => by
    rw [cov.unheld (not_not.mp absent)]
    exact createdCr_covered r)
  exact Covered.done busy created rfl _ _

theorem Covered.runDeleteCr (r : Line) : Covered (runDeleteCr r s) := by
  refine h.adminChecked busy fun fits => h.refused busy fun _ => h.refused busy fun unbound => ?_
  have left := h.spares (spares_setLeftWrite s (crId r 12) (s.leftWrite (crId r 12) || (s.cr (crId r 12)).writing))
  have deleted : Covered (deletedCr s (crId r 12)) :=
    left.setCr ((h.holders_of_unbound (crId_ne_zero fits) unbound).symm ▸ CplRing.cleared_covered)
  exact Covered.done busy deleted rfl _ _

theorem Covered.runResetCr (r : Line) : Covered (runResetCr r s) :=
  h.adminChecked busy fun _ => h.refused busy fun present =>
    Covered.done busy (h.spares (spares_setCr fun _ cov => cov.resetRing present)) rfl _ _

theorem Covered.runCreateSr (r : Line) : Covered (runCreateSr r s) := by
  refine h.adminChecked busy fun fits => h.refused busy fun absent => h.refused busy fun _ => ?_
  simp only [Bool.and_eq_true] at fits
  have transfer : srId r ≠ 0 := srId_ne_zero fits.1.1.1.1
  have created : Covered (s.setSr (srId r) (createdSr r)) :=
    h.setSr_unheld (h.unheld _ (.inl (not_not.mp absent))) rfl rfl (fun zero => absurd zero transfer)
  exact Covered.done busy created rfl _ _

theorem Covered.runDeleteSr (r : Line) : Covered (runDeleteSr r s) :=
  h.adminChecked busy fun _ => h.refused busy fun _ => h.refused busy fun quiet =>
    Covered.done busy (h.setSr_unheld (SubRing.holds_of_quiet (by simpa using quiet)) rfl rfl fun _ => rfl) rfl _ _

theorem Covered.runResetSr (r : Line) : Covered (runResetSr r s) := by
  refine h.adminChecked busy fun _ => h.refused busy fun _ => h.refused busy fun _ => ?_
  have emptied : Spares s (s.setSr (srId r) { s.sr (srId r) with
      producer := 0, consumer := 0, link := .unlinked, carry := .closed }) :=
    spares_setSr ⟨rfl, id, Iff.rfl, id, rfl, rfl⟩ rfl
  have paused := (emptied.trans (spares_applyPending _ (srId r))).trans
    (spares_setState (n := srId r) (st := .paused) (by decide))
  exact Covered.done busy (h.spares paused) (applyPending_admin _ _) _ _

theorem Covered.runSetLevel (r : Line) : Covered (runSetLevel r s) := by
  have leveled (l : Fin 8) (p : Option (Fin 8)) :
      Spares s (s.setSr (srId r) { s.sr (srId r) with level := l, pendingLevel := p }) :=
    spares_setSr ⟨rfl, id, Iff.rfl, id, rfl, rfl⟩ rfl
  refine h.adminChecked busy fun _ => h.refused busy fun _ => ?_
  split
  · exact Covered.done busy (h.spares (leveled _ _)) rfl _ _
  · exact Covered.done busy (h.spares (leveled _ _)) rfl _ _

theorem Covered.runPauseSr (r : Line) : Covered (runPauseSr r s) :=
  h.adminChecked busy fun _ => h.refused busy fun _ => h.refused busy fun _ =>
    Covered.done busy (h.spares (spares_setStates (by decide) _ s)) (setStates_admin _ _ s) _ _

theorem Covered.runResumeSr (r : Line) : Covered (runResumeSr r s) :=
  h.adminChecked busy fun _ => h.refused busy fun _ => h.refused busy fun _ =>
    Covered.done busy (h.spares (spares_setStates (by decide) _ s)) (setStates_admin _ _ s) _ _

theorem Covered.runAbortSr (r : Line) : Covered (runAbortSr r s) := by
  refine h.adminChecked busy fun fits => h.refused busy fun _ => Covered.closeAbort ?_
  have aborting := (h.spares (spares_setState (n := srId r) (st := .aborting) (by decide))).spares
    (spares_admin (a := .abortMarkers (srId r) ((s.sr (srId r)).state = .faulted)) fun _ => busy)
  split
  · exact aborting.abortDispatched _
  · exact aborting

theorem Covered.runSetWindow (r : Line) : Covered (runSetWindow r s) :=
  h.adminChecked busy fun _ => h.refused busy fun _ => Covered.done busy (h.spares (spares_setWin s _ _)) rfl _ _

theorem Covered.runClearWindow (r : Line) : Covered (runClearWindow r s) :=
  h.adminChecked busy fun _ => h.refused busy fun _ => Covered.done busy (h.spares (spares_setWin s _ _)) rfl _ _

theorem Covered.runSetTrigger (r : Line) : Covered (runSetTrigger r s) := by
  unfold Machine.runSetTrigger
  split
  · exact h.finishAdmin busy _ _
  · exact h.adminChecked busy fun _ => Covered.done busy (h.spares (spares_setTrig s _ _)) rfl _ _

theorem Covered.runSetEngine (r : Line) : Covered (runSetEngine r s) :=
  h.adminChecked busy fun _ => Covered.done busy (h.spares (spares_ctl (c := s.ctl.withParameters r) id)) rfl _ _

theorem Covered.presentResult (record : Line) (address : Nat) : Covered (presentResult s record address) := by
  have waits := h.spares (spares_admin (a := .resultWrite record address none) fun _ => busy)
  exact waits.spares (spares_portAdmin _ (some ⟨.resultWrite, address, 64, record.toList⟩)
    fun _ => by simp [fetchOf_some])

theorem Covered.runQuery (r : Line) : Covered (runQuery r s) :=
  h.adminChecked busy fun _ => h.presentResult busy _ _

theorem Covered.runIdentify (r : Line) : Covered (runIdentify r s) :=
  h.adminChecked busy fun _ => h.presentResult busy _ _

theorem Covered.runAdmin (op : Option AdminOp) (r : Line) : Covered (runAdmin op r s) := by
  cases op with
  | none => exact h.finishAdmin busy _ _
  | some o =>
    cases o with
    | createCr => exact h.runCreateCr busy r
    | deleteCr => exact h.runDeleteCr busy r
    | createSr => exact h.runCreateSr busy r
    | deleteSr => exact h.runDeleteSr busy r
    | setLevel => exact h.runSetLevel busy r
    | pauseSr => exact h.runPauseSr busy r
    | resumeSr => exact h.runResumeSr busy r
    | abortSr => exact h.runAbortSr busy r
    | resetSr => exact h.runResetSr busy r
    | resetCr => exact h.runResetCr busy r
    | setWindow => exact h.runSetWindow busy r
    | clearWindow => exact h.runClearWindow busy r
    | setTrigger => exact h.runSetTrigger busy r
    | setEngine => exact h.runSetEngine busy r
    | query => exact h.runQuery busy r
    | identify => exact h.runIdentify busy r

end Admin

/-- A fetched SR0 record fills the head slot, and its command may run at once (R10, R137). -/
theorem Covered.adminFetched {s : State} (h : Covered s) (answered : fetchAnswered s 0) (record : Line)
    (op : Option AdminOp) : Covered (adminFetched record (Machine.runAdmin op record) s) := by
  have placed := h.placeAdmin answered record
  unfold Machine.adminFetched
  dsimp only
  split
  · have taken : Covered { Machine.placeAdmin s record with admin := .taken } :=
      placed.setAdmin (placeAdmin_head s record)
    exact (taken.runAdmin AdminState.noConfusion op record).decisionA
  · exact placed

theorem Covered.resultAnswered {s : State} (h : Covered s) (ok : Bool) : Covered (resultAnswered s ok) := by
  unfold Machine.resultAnswered
  split
  · next waits =>
    have busy : s.admin ≠ .idle := by rw [waits]; exact AdminState.noConfusion
    split
    · exact h.finishAdmin busy _ _
    · exact h.spares (spares_admin fun _ => busy)
  · exact h

/-! ### Expiries -/

theorem Covered.expireHead {s : State} (h : Covered s) (n : Fin 16) : Covered (expireHead s n) := by
  unfold Machine.expireHead
  dsimp only
  split
  · next c head =>
    have transfer (a : HeadCmd) (l : ChainLink) : Spares s (s.setSr n { s.sr n with head := .transfer a, link := l }) :=
      spares_setSr ⟨rfl, id, by simp [head], fun ⟨_, _, e⟩ => (by rw [head] at e; cases e), rfl, rfl⟩ rfl
    split
    · split
      · exact (h.spares (transfer _ _)).settleRing n
      · exact h.spares (transfer _ _)
    · exact h
  · exact h

theorem spares_expireActive (s : State) (n : Fin 16) : Spares s (expireActive s n) := by
  unfold expireActive
  split
  · next c active =>
    split
    · refine spares_disp ?_
      dsimp only
      split <;> simp [Dispatcher.contexts, active, Context.requested]
    · exact .refl s
  · exact .refl s

theorem markLate_rings (stack : List Context) (n : Fin 16) :
    (markLate stack n).map (fun c => c.ring) = stack.map (fun c => c.ring) := by
  simp only [markLate, List.map_map]
  refine List.map_congr_left fun c _ => ?_
  by_cases h : c.ring = n <;> simp [h]

theorem find?_stack_ring {s : State} {n : Fin 16} {c : Context}
    (found : s.disp.stack.find? (fun d => d.ring = n) = some c) : c ∈ s.disp.stack ∧ c.ring = n :=
  ⟨List.mem_of_find?_eq_some found, by simpa using List.find?_some found⟩

/-- A context of the stack is not that of the active command. -/
theorem Covered.active_ring_ne {s : State} (h : Covered s) {c : Context} (mem : c ∈ s.disp.stack) :
    ∀ a, s.disp.active = some a → a.ring ≠ c.ring := by
  intro a active same
  have rings := h.rings
  simp only [Dispatcher.contexts, active, Option.toList_some, List.singleton_append, List.map_cons,
    List.nodup_cons, List.mem_map, not_exists, not_and] at rings
  exact rings.1 c mem same.symm

theorem Covered.expireSuspended {s : State} (h : Covered s) (n : Fin 16) : Covered (expireSuspended s n) := by
  unfold Machine.expireSuspended
  split
  · next c found =>
    split
    · have mem := (find?_stack_ring found).1
      exact (h.removeSuspended mem (h.active_ring_ne mem) _).closeAbort
    · exact h.spares (spares_disp (by simp [Dispatcher.contexts, markLate_rings]))
  · exact h

theorem Covered.deliverExpiry {s : State} (h : Covered s) (n : Fin 16) (p : Place) : Covered (deliverExpiry s n p) := by
  cases p with
  | head => exact h.expireHead n
  | active => exact h.spares (spares_expireActive s n)
  | suspended => exact h.expireSuspended n

/-! ### The port -/

theorem spares_retire (s : State) (id : Fin 32) : Spares s (s.retire id) :=
  spares_port fun n => by
    simp only [Port.fetches_eq]
    have := fetchesIn_le_of_sublist (n := n) (List.filter_sublist (p := fun t => t.id ≠ id) (l := s.port.outstanding))
    omega

theorem spares_lose (s : State) (t : Transaction) : Spares s (s.lose t) :=
  (spares_retire s t.id).trans (spares_port fun n => by
    simp only [Port.fetches_eq]
    exact le_refl _)

theorem spares_freeAbandoned (s : State) (id : Fin 32) : Spares s (s.freeAbandoned id) :=
  spares_port fun n => by
    simp only [Port.fetches_eq]
    exact le_refl _

/-- A granted request moves from the presented ones to the outstanding ones. -/
theorem spares_issue {s : State} {q : Requester} {req : Request} (id : Fin 32)
    (presented : s.port.presented q = some req) : Spares s (issue s q req id) := by
  have moved : Spares s { s with port := { s.port.take q with
      outstanding := s.port.outstanding ++ [⟨id, s.time.tick, req⟩], pointer := q } } :=
    spares_port fun n => by
      have one : fetchesIn n [⟨id, s.time.tick, req⟩] = fetchOf n (some req) := by
        simp [fetchesIn, fetchOf_some, List.countP_cons]
      have more : fetchesIn n (s.port.outstanding ++ [⟨id, s.time.tick, req⟩]) =
          fetchesIn n s.port.outstanding + fetchOf n (some req) := by
        rw [← one]
        exact List.countP_append
      cases q <;> simp only [Port.presented] at presented <;>
        simp only [Port.fetches_eq, Port.take, presented, more, fetchOf_none] <;> omega
  exact moved.trans .same

theorem spares_presentNext (s : State) (q : Requester) : Spares s (presentNext s q) := by
  cases q with
  | ringFetch => exact spares_presentFetch s
  | lane => exact spares_presentUnit s
  | completion => exact spares_presentCompletion s
  | admin => exact .refl s
  | control => exact .refl s

theorem spares_grant (s : State) (id : Fin 32) : Spares s (grant s id) := by
  unfold grant
  split
  · split
    · split
      · next presented => exact (spares_issue id presented).trans (spares_presentNext _ _)
      · exact .refl s
    · exact .refl s
  · exact .refl s

/-- The answer of a record fetch leaves its marker set, and no other fetch of the ring. -/
theorem Covered.fetchAnswered_of_mem {s : State} (h : Covered s) {t : Transaction} {n : Fin 16}
    (mem : t ∈ s.port.outstanding) (kind : t.request.kind = .recordFetch n) :
    fetchAnswered (s.retire t.id) n ∧ fetchAnswered (s.lose t) n := by
  have fewer := fetchesIn_filter_lt mem kind
  refine ⟨h.fetch_over ?_, h.fetch_over ?_⟩ <;> simp only [Port.fetches_eq, State.retire, State.lose] <;> omega

theorem Covered.deliverError {s : State} (h : Covered s) {req : Request}
    (answered : ∀ n, req.kind = .recordFetch n → fetchAnswered s n) : Covered (deliverError req s) := by
  unfold Machine.deliverError
  split
  · next kind => exact h.failFetch (answered _ kind)
  · exact h.readAnswered _ _
  · exact h.writeAnswered _ _
  · exact h.recordFailed _
  · exact h.spares (spares_messageFailed s _ _)
  · exact h.resultAnswered _
  · exact h.spares (spares_ctl id)

/-! ### Resets and the enable -/

theorem covered_softResetValues (s : State) : Covered (softResetValues s) :=
  covered_of_cleared rfl rfl rfl (fun _ => rfl) rfl

theorem covered_powerOn (s : State) : Covered (powerOn s) := covered_of_cleared rfl rfl rfl (fun _ => rfl) rfl

theorem covered_reset : Covered State.reset := covered_of_cleared rfl rfl rfl (fun _ => rfl) rfl

theorem Covered.drainCheck {s : State} (h : Covered s) : Covered (drainCheck s) := by
  unfold Machine.drainCheck
  split
  · exact covered_softResetValues s
  · exact h

theorem spares_withdrawAll (s : State) : Spares s (withdrawAll s) := by
  refine Spares.trans ?_ (Spares.same (s := { s with port := { s.port with
    ringFetch := none, lane := none, completion := none, admin := none, control := none } }))
  exact spares_port fun n => by
    simp only [Port.fetches_eq, fetchOf_none]
    omega

theorem Covered.softReset {s : State} (h : Covered s) : Covered (softReset s) := by
  unfold Machine.softReset
  split
  · exact h
  · exact (h.spares ((spares_withdrawAll s).trans (spares_setEngine _ (by decide)))).drainCheck

/-- An engine that is OFF holds no command, so that SR0 and CR0 may be replaced (R22). -/
theorem Covered.enableEngine {s : State} (h : Covered s) (off : s.ctl.engine = .off) (p : Bool) :
    Covered (enableEngine s p) := by
  have idle (n : Fin 16) : (s.sr n).holds = 0 := h.unheld n (.inr off)
  have stored : Covered { s with ctl := { s.ctl with pauseBit := p } } := h.spares (spares_ctl id)
  have sr0 : Covered ({ s with ctl := { s.ctl with pauseBit := p } }.setSr 0 (initialSr0 s.ctl)) :=
    stored.setSr_unheld (idle 0) rfl rfl fun _ => rfl
  have none_ : State.holders ({ s with ctl := { s.ctl with pauseBit := p } }.setSr 0 (initialSr0 s.ctl)) 0 = 0 :=
    holders_eq_zero fun n _ => by
      rw [State.sr_setSr]
      split
      · rfl
      · exact idle n
  have cr0 := sr0.setCr (n := 0) (c := initialCr0 s.ctl) (none_ ▸ initialCr0_covered s.ctl)
  unfold Machine.enableEngine
  dsimp only
  split
  · exact stored.spares (spares_reportFault _ _ _ _)
  · split
    · exact stored.spares (spares_reportFault _ _ _ _)
    · exact cr0.spares (spares_ctl fun e => by cases p <;> cases e)

theorem Covered.takePause {s : State} (h : Covered s) (p : Bool) : Covered (takePause s p) := by
  have stored (q : Bool) {e : EngineState} (on : e ≠ .off) :
      Spares s { s with ctl := { s.ctl with pauseBit := q, engine := e } } := spares_ctl fun off => absurd off on
  unfold Machine.takePause
  dsimp only
  split
  · split <;> exact h.spares (stored _ (by decide))
  · exact h.spares (stored _ (by decide))
  · exact (h.spares (stored _ (by decide))).decisionC _
  · exact h.spares (spares_ctl id)

theorem Covered.writeDevctl {s : State} (h : Covered s) (e p r : Bool) : Covered (writeDevctl s e p r) := by
  unfold Machine.writeDevctl
  split
  · exact h
  · split
    · exact h.softReset
    · split
      · exact h.softReset
      · split
        · next off =>
          simp only [Bool.and_eq_true, decide_eq_true_eq] at off
          exact h.enableEngine off.1.1 p
        · exact h.takePause p

theorem Covered.writeRegister {s : State} (h : Covered s) (o : Nat) (v : Word32) : Covered (writeRegister s o v) := by
  unfold Machine.writeRegister
  split
  · exact h.writeDevctl _ _ _
  · exact h.spares (spares_writeNotify s v)
  · split
    · exact h.spares (spares_ctl id)
    · exact h
  · split
    · exact h.spares (spares_ctl (by rw [store_engine]; exact id))
    · exact h

/-! ### Every command -/

/-- An answer that is taken: the drain in RESETTING, the effect of the row on the answered transaction, or an
abandoned identifier freed (R87 to R89). -/
theorem answer_next {s t : State} {id : Fin 32} {act : Request → Option (State → State)}
    (h : answer s id act = .next t) :
    t = drainCheck (s.retire id) ∨
    (∃ x f, x ∈ s.port.outstanding ∧ x.id = id ∧ act x.request = some f ∧ t = f (s.retire id)) ∨
    t = s.freeAbandoned id := by
  unfold answer at h
  split at h
  · next x found =>
    split at h
    · next f acts =>
      split at h <;> cases h
      · exact .inl rfl
      · exact .inr (.inl ⟨x, f, List.mem_of_find?_eq_some found, by simpa using List.find?_some found, acts, rfl⟩)
    · cases h
  · split at h <;> cases h
    exact .inr (.inr rfl)

theorem Covered.answer {s t : State} (h : Covered s) {id : Fin 32} {act : Request → Option (State → State)}
    (run : ∀ req f, act req = some f → ∀ {u}, Covered u →
      (∀ n, req.kind = .recordFetch n → fetchAnswered u n) → Covered (f u))
    (e : answer s id act = .next t) : Covered t := by
  have retired := h.spares (spares_retire s id)
  rcases answer_next e with rfl | ⟨x, f, mem, rfl, acts, rfl⟩ | rfl
  · exact retired.drainCheck
  · exact run _ _ acts retired fun n kind => (h.fetchAnswered_of_mem mem kind).1
  · exact h.spares (spares_freeAbandoned s id)

theorem Covered.fetched {s : State} (h : Covered s) {n : Fin 16} (answered : fetchAnswered s n) (record : Line) :
    Covered (fetched n record s) := by
  unfold Machine.fetched
  split
  · next zero => exact h.adminFetched (zero ▸ answered) record _
  · next transfer => exact (h.placeTransfer answered transfer record).settleRing n

theorem Covered.adminArrives {s : State} (h : Covered s) (record : Line) (op : Option AdminOp) :
    Covered (adminArrives record (Machine.runAdmin op record) s) := by
  unfold Machine.adminArrives
  split
  · next t found =>
    have retired := h.spares (spares_retire s t.id)
    have kind : t.request.kind = .recordFetch 0 := by simpa using List.find?_some found
    split
    · exact retired.drainCheck
    · exact retired.adminFetched (h.fetchAnswered_of_mem (List.mem_of_find?_eq_some found) kind).1 record op
  · exact h

theorem Covered.adminRow {s t : State} (h : Covered s) {op : Option AdminOp} {r : Line}
    (e : adminRow op r (Machine.runAdmin op r) s = .next t) : Covered t := by
  rw [adminRow_eq] at e
  cases e
  exact h.adminArrives r _

theorem Covered.abandon {s : State} (h : Covered s) {t : Transaction} (mem : t ∈ s.port.outstanding) :
    Covered (abandon s t) := by
  have lost := h.spares (spares_lose s t)
  unfold Machine.abandon
  dsimp only
  split
  · exact lost.drainCheck
  · exact lost.deliverError fun n kind => (h.fetchAnswered_of_mem mem kind).2

theorem Covered.acceptChange {s : State} (h : Covered s) (i : Fin 8) : Covered (acceptChange s i) := by
  have line : Covered (s.setTrig i (s.trig i).accepted) := h.spares (spares_setTrig s i _)
  unfold Machine.acceptChange
  dsimp only
  split
  · exact line.decisionA
  · exact line

theorem Covered.ite {s t u : State} {p : Prop} [Decidable p] (h : Covered s) (k : p → Covered u)
    (e : (Host.Outcome.next (if p then u else s) : Host.Outcome State Fault Refusal) = .next t) : Covered t := by
  cases e
  split
  · next hp => exact k hp
  · exact h

theorem Covered.exec {s t : State} (h : Covered s) {c : Instr} (e : exec c s = .next t) : Covered t := by
  cases c with
  | submissionTailUpdate n x a => cases e; exact h.spares (spares_tailUpdate s _ _)
  | completionHeadUpdate n x a => cases e; exact h.spares (spares_headUpdate s _ _ _)
  | enable p => cases e; exact h.writeDevctl _ _ _
  | pause p => cases e; exact h.writeDevctl _ _ _
  | softResetRequest a p r => cases e; exact h.writeDevctl _ _ _
  | faultClear => cases e; exact h.spares (spares_ctl id)
  | registerWrite o w v => exact h.ite (fun _ => h.writeRegister o v) e
  | powerOnReset => cases e; exact covered_powerOn s
  | admissionBegin n => exact h.ite (fun fits => h.beginAdmission (by simp_all)) e
  | recordFetchSuccess id r =>
    simp only [Machine.exec, execRecordFetchSuccess] at e
    refine h.answer (fun req f hf u hu answered => ?_) e
    split at hf
    · next n kind => cases hf; exact hu.fetched (answered n kind) r
    · cases hf
  | recordFetchError id =>
    simp only [Machine.exec, execRecordFetchError] at e
    refine h.answer (fun req f hf u hu answered => ?_) e
    split at hf
    · next n kind => cases hf; exact hu.failFetch (answered n kind)
    · cases hf
  | memoryGrant id => cases e; exact h.spares (spares_grant s id)
  | readUnitAnswer id a =>
    simp only [Machine.exec, execReadUnitAnswer] at e
    refine h.answer (fun req f hf u hu _ => ?_) e
    split at hf <;> cases hf
    exact hu.readAnswered _ a
  | writeUnitAnswer id ok =>
    simp only [Machine.exec, execWriteUnitAnswer] at e
    refine h.answer (fun req f hf u hu _ => ?_) e
    split at hf <;> cases hf
    exact hu.writeAnswered _ ok
  | completionWriteIssue n => exact h.ite (fun _ => h.spares (spares_presentRecord s n)) e
  | completionWriteAck id =>
    simp only [Machine.exec, execCompletionWriteAck] at e
    refine h.answer (fun req f hf u hu _ => ?_) e
    split at hf <;> cases hf
    exact hu.recordWritten _
  | completionWriteError id =>
    simp only [Machine.exec, execCompletionWriteError] at e
    refine h.answer (fun req f hf u hu _ => ?_) e
    split at hf <;> cases hf
    exact hu.recordFailed _
  | messageWriteIssue n => exact h.ite (fun _ => h.spares (spares_presentMessage s n)) e
  | messageWriteAck id =>
    simp only [Machine.exec, execMessageWriteAck] at e
    refine h.answer (fun req f hf u hu _ => ?_) e
    split at hf <;> cases hf
    exact hu.spares (spares_messageWritten u _)
  | messageWriteError id =>
    simp only [Machine.exec, execMessageWriteError] at e
    refine h.answer (fun req f hf u hu _ => ?_) e
    split at hf <;> cases hf
    exact hu.spares (spares_messageFailed u _ _)
  | resultWriteAnswer id ok =>
    simp only [Machine.exec, execResultWriteAnswer] at e
    refine h.answer (fun req f hf u hu _ => ?_) e
    split at hf <;> cases hf
    exact hu.resultAnswered ok
  | faultMessageIssue =>
    refine h.ite (fun _ => ?_) e
    have issued : Covered { s with ctl := { s.ctl with faultWrite := true } } := h.spares (spares_ctl id)
    refine issued.spares (spares_port fun n => ?_)
    simp only [Port.fetches_eq, fetchOf_some, faultRequest, reduceCtorEq, if_false]
    omega
  | faultMessageAnswer id ok =>
    simp only [Machine.exec, execFaultMessageAnswer] at e
    refine h.answer (fun req f hf u hu _ => ?_) e
    split at hf <;> cases hf
    exact hu.spares (spares_ctl fun off => off)
  | transactionTimeout id =>
    simp only [Machine.exec, execTransactionTimeout] at e
    split at e
    · next found => exact h.ite (fun _ => h.abandon (List.mem_of_find?_eq_some found)) e
    · cases e; exact h
  | lateResponse id =>
    simp only [Machine.exec, execLateResponse] at e
    exact h.answer (fun _ _ hf => by cases hf) e
  | tickAdvance => exact h.ite (fun _ => h.spares .same) e
  | deadlineExpiry n p =>
    simp only [Machine.exec, execDeadlineExpiry] at e
    split at e
    · exact h.ite (fun _ => (h.spares (spares_unwatch s n p)).deliverExpiry n p) e
    · cases e; exact h
  | coalesceTimerElapse n =>
    have elapsed := h.spares (spares_setCr (n := n) (c := { s.cr n with timer := (s.cr n).timer.elapse })
      fun _ cov => cov)
    exact h.ite (fun _ => elapsed) e
  | triggerChangeAccepted i => exact h.ite (fun _ => h.acceptChange i) e
  | adminUnknown r => exact h.adminRow (op := none) e
  | createCr r => exact h.adminRow (op := some .createCr) e
  | deleteCr r => exact h.adminRow (op := some .deleteCr) e
  | createSr r => exact h.adminRow (op := some .createSr) e
  | deleteSr r => exact h.adminRow (op := some .deleteSr) e
  | setLevel r => exact h.adminRow (op := some .setLevel) e
  | pauseSr r => exact h.adminRow (op := some .pauseSr) e
  | resumeSr r => exact h.adminRow (op := some .resumeSr) e
  | abortSr r => exact h.adminRow (op := some .abortSr) e
  | resetSr r => exact h.adminRow (op := some .resetSr) e
  | resetCr r => exact h.adminRow (op := some .resetCr) e
  | setWindow r => exact h.adminRow (op := some .setWindow) e
  | clearWindow r => exact h.adminRow (op := some .clearWindow) e
  | setTrigger r => exact h.adminRow (op := some .setTrigger) e
  | setEngine r => exact h.adminRow (op := some .setEngine) e
  | query r => exact h.adminRow (op := some .query) e
  | identify r => exact h.adminRow (op := some .identify) e
  | triggerSample i v =>
    simp only [Machine.exec, execTriggerSample] at e
    cases e
    split
    · exact h.spares (spares_setTrig s i _)
    · split
      · exact h.spares (spares_setTrig s i _)
      · exact h.acceptChange i
  | prescalerCount => exact h.ite (fun _ => h.spares .same) e

/-! ### The statements -/

/-- Settles O59: the invariant is kept by the queue and by every command. -/
theorem reservationsStayCovered : Obligations.ReservationsStayCovered := by
  intro s t inv h
  rw [reservationInv_iff] at inv ⊢
  unfold step at h
  split at h
  · cases h
    exact inv
  · next rest _ => exact (inv.spares (Spares.same (t := { s with pending := rest }))).exec h

/-- Settles O52. -/
theorem resetMeetsInvariants : Obligations.ResetMeetsInvariants :=
  ⟨portInv_powerOn .reset, triggerInv_powerOn .reset, stackInv_powerOn .reset, windowInv_powerOn .reset,
    (reservationInv_iff _).mpr covered_reset⟩

end Sys2Proof.Machine
end

section
/-! PROOFS. The register port: ignored NOTIFY writes (O6), the enable (O7), PAUSE (O8), the administrative registers
(O9) and the decoding of every access (O10). -/

open Sys2Proof.Claims

namespace Sys2Proof.Machine

-- One proof after the other: many at once use up the memory limit.
set_option Elab.async false

/-! ### Ignored NOTIFY writes (R3) -/

theorem not_decodesNotify {s : State} (h : s.ctl.engine = .off ∨ s.ctl.engine = .resetting) :
    s.decodesNotify = false := by
  rcases h with e | e <;> simp [State.decodesNotify, State.works, e]

/-- Settles O6. -/
theorem notifyIgnoredOffAndResetting : Obligations.NotifyIgnoredOffAndResetting := by
  intro s n x a h
  rw [exec_submissionTailUpdate, exec_completionHeadUpdate]
  simp [tailUpdate, headUpdate, not_decodesNotify h]

/-! ### DEVCTL writes (R158) -/

section Devctl

variable {s : State} {e p r : Bool}

theorem exec_enable : exec (.enable p) s = .next (writeDevctl s true p false) := rfl

theorem exec_pause : exec (.pause p) s = .next (writeDevctl s s.ctl.enable p false) := rfl

theorem exec_softResetRequest : exec (.softResetRequest e p r) s = .next (writeDevctl s e p r) := rfl

theorem writeDevctl_resetting (h : s.ctl.engine = .resetting) : writeDevctl s e p r = s := if_pos h

/-- A write that asks for a reset (R163). -/
theorem writeDevctl_reset (asks : r = true ∨ (e = false ∧ s.ctl.enable = true)) :
    writeDevctl s e p r = softReset s := by
  unfold writeDevctl
  split
  · next resetting => rw [softReset, if_pos resetting]
  · rcases asks with rfl | ⟨rfl, enabled⟩
    · simp
    · simp [enabled]

/-- A write that leaves ENABLE as stored acts by its PAUSE bit. -/
theorem writeDevctl_stored (working : s.ctl.engine ≠ .resetting) :
    writeDevctl s s.ctl.enable p false = takePause s p := by
  cases h : s.ctl.enable <;> simp [writeDevctl, working, h]

theorem writeDevctl_enable (off : s.ctl.engine = .off) (disabled : s.ctl.enable = false) :
    writeDevctl s true p false = enableEngine s p := by
  simp [writeDevctl, off, disabled]

end Devctl

/-! ### The enable (R22, R159) -/

theorem log2Fits_iff (k : Nat) : log2Fits k = true ↔ 1 ≤ k ∧ k ≤ 12 := by
  simp only [log2Fits, Bool.and_eq_true, decide_eq_true_eq]

theorem alignedFit_iff (base extent : Nat) :
    alignedFit base extent = true ↔ base % 64 = 0 ∧ base + extent ≤ 2 ^ 48 := by
  simp only [alignedFit, Bool.and_eq_true, decide_eq_true_eq]
  exact Iff.rfl

theorem srValid_iff (c : Control) : c.srValid = true ↔ srChecks c := by
  simp only [Control.srValid, srChecks, Bool.and_eq_true, log2Fits_iff, alignedFit_iff]
  tauto

theorem crValid_iff (c : Control) : c.crValid = true ↔ crChecks c := by
  simp only [Control.crValid, crChecks, Bool.and_eq_true, log2Fits_iff, alignedFit_iff]
  tauto

/-- Settles O7: the three outcomes of an enable in OFF, and the two writes that are none. -/
theorem enableOutcomes : Obligations.EnableOutcomes := by
  refine ⟨fun s p off disabled => ?_, fun s p => ⟨fun enabled => ?_, fun resetting => ?_⟩⟩
  · rw [exec_enable, writeDevctl_enable off disabled, enableEngine]
    simp only [← srValid_iff, ← crValid_iff]
    refine ⟨fun bad => ?_, fun good bad => ?_, fun good good' => ?_⟩
    · simp [bad]
    · simp [good, bad]
    · simp only [good, good', Bool.not_true, Bool.false_eq_true, if_false]
      rfl
  · rw [exec_enable, exec_pause, enabled]
  · rw [exec_enable, writeDevctl_resetting resetting]

/-! ### PAUSE (R160) -/

theorem works_iff (s : State) :
    s.works = true ↔ s.ctl.engine = .running ∨ s.ctl.engine = .pausing ∨ s.ctl.engine = .paused := by
  simp only [State.works, Bool.or_eq_true, decide_eq_true_eq, or_assoc]

theorem decisionC_pauseBit (k : Nat) (s : State) : (decisionC k s).ctl.pauseBit = s.ctl.pauseBit := by
  show (decisionC k s).ctl.settings.pauseBit = s.ctl.settings.pauseBit
  rw [(keeps_decisionC k s).settings]

theorem takePause_pauseBit (s : State) (p : Bool) : (takePause s p).ctl.pauseBit = p := by
  unfold takePause
  dsimp only
  split
  · split <;> rfl
  · rfl
  · rw [decisionC_pauseBit]
    rfl
  · rfl

/-- Where R160 gives PAUSE no effect, the bit is stored. -/
theorem takePause_stores {s : State} {p : Bool}
    (h : s.ctl.engine = .off ∨ s.ctl.engine = .halted ∨ (s.ctl.engine = .running ∧ p = false) ∨
      (s.ctl.engine = .pausing ∧ p = true) ∨ (s.ctl.engine = .paused ∧ p = true)) :
    takePause s p = { s with ctl := { s.ctl with pauseBit := p } } := by
  rcases h with e | e | ⟨e, rfl⟩ | ⟨e, rfl⟩ | ⟨e, rfl⟩ <;> simp [takePause, e]

/-- Settles O8: R160's table, row by row. -/
theorem pauseActsByEngineState : Obligations.PauseActsByEngineState := by
  refine ⟨works_iff, fun s p => ?_⟩
  rw [exec_pause]
  refine ⟨_, rfl, fun resetting => writeDevctl_resetting resetting, ?_⟩
  by_cases resetting : s.ctl.engine = .resetting
  · simp [resetting]
  · rw [writeDevctl_stored resetting]
    refine ⟨fun _ => takePause_pauseBit s p, fun running on => ?_, fun pausing on => ?_, fun paused on => ?_,
      takePause_stores⟩
    · subst on
      simp only [takePause, running]
      split <;> rfl
    · subst on
      simp only [takePause, pausing]
      rfl
    · subst on
      simp only [takePause, paused]
      rfl

/-! ### The administrative registers (R171) -/

section Store

variable (b : BitVec 48) (v : Word32)

theorem withLow_getLsbD (i : Nat) :
    (withLow b v).getLsbD i = if i < 32 then v.getLsbD i else (b.extractLsb' 32 16).getLsbD (i - 32) :=
  BitVec.getLsbD_append

theorem withHigh_getLsbD (i : Nat) : (withHigh b v).getLsbD i =
    if i < 32 then (b.extractLsb' 0 32).getLsbD i else (v.extractLsb' 0 16).getLsbD (i - 32) :=
  BitVec.getLsbD_append

theorem withLow_low : (withLow b v).extractLsb' 0 32 = v &&& 0xFFFFFFFF#32 := by
  have all : (0xFFFFFFFF#32) = BitVec.allOnes 32 := rfl
  refine Eq.trans (BitVec.eq_of_getLsbD_eq fun i hi => ?_) ((all ▸ BitVec.and_allOnes : v &&& 0xFFFFFFFF#32 = v).symm)
  simp [withLow_getLsbD, hi]

theorem withLow_high : (withLow b v).extractLsb' 32 16 = b.extractLsb' 32 16 := by
  refine BitVec.eq_of_getLsbD_eq fun i hi => ?_
  simp [withLow_getLsbD, hi]

theorem withHigh_low : (withHigh b v).extractLsb' 0 32 = b.extractLsb' 0 32 := by
  refine BitVec.eq_of_getLsbD_eq fun i hi => ?_
  simp [withHigh_getLsbD, hi]

theorem lowHalf_getLsbD {i : Nat} (hi : i < 32) : (0x0000FFFF#32).getLsbD i = decide (i < 16) := by
  show (BitVec.ofNat 32 (2 ^ 16 - 1)).getLsbD i = _
  rw [BitVec.getLsbD_ofNat, Nat.testBit_two_pow_sub_one]
  simp [hi]

theorem withHigh_high : ((withHigh b v).extractLsb' 32 16).zeroExtend 32 = v &&& 0x0000FFFF#32 := by
  refine BitVec.eq_of_getLsbD_eq fun i hi => ?_
  rw [BitVec.getLsbD_and, lowHalf_getLsbD hi]
  by_cases low : i < 16 <;> simp [withHigh_getLsbD, low, hi]

/-- The two sizes stand at bits 3:0 and 11:8. -/
theorem sizes_read :
    BitVec.ofNat 32 ((v.extractLsb' 0 4).toNat + 2 ^ 8 * (v.extractLsb' 8 4).toNat) = v &&& 0x00000F0F#32 := by
  ext i hi
  have low : (v.extractLsb' 0 4).toNat < 2 ^ 8 := by omega
  simp only [← BitVec.getLsbD_eq_getElem, BitVec.getLsbD_ofNat, hi, decide_true, Bool.true_and]
  rw [Nat.add_comm, Nat.testBit_two_pow_mul_add _ low]
  simp only [BitVec.testBit_toNat, BitVec.getLsbD_extractLsb']
  interval_cases i <;> simp

end Store

/-- What a stored register changes of Engine Control. -/
theorem store_frame (c : Control) (o : Nat) (v : Word32) :
    c.store o v = { c with
      srBase := (c.store o v).srBase, crBase := (c.store o v).crBase
      srLog2 := (c.store o v).srLog2, crLog2 := (c.store o v).crLog2 } := by
  unfold Control.store
  split <;> rfl

theorem writeRegister_admin {s : State} {o : Nat} (h : o ∈ [0x10, 0x14, 0x18, 0x1C, 0x20]) (v : Word32) :
    writeRegister s o v = if s.ctl.engine = .off then { s with ctl := s.ctl.store o v } else s := by
  simp only [List.mem_cons, List.not_mem_nil, or_false] at h
  rcases h with rfl | rfl | rfl | rfl | rfl <;> rfl

theorem exec_registerWrite {s : State} {o w : Nat} {v : Word32} :
    exec (.registerWrite o w v) s = .next (if w = 4 && o % 4 = 0 then writeRegister s o v else s) := rfl

/-- The stored register reads back what Table 11.2 lists of it, and no other register changes. -/
theorem readRegister_store {s : State} {o : Nat} {mask : Word32}
    (h : (o, mask) ∈ [(0x10, 0xFFFFFFFF#32), (0x14, 0x0000FFFF#32), (0x18, 0xFFFFFFFF#32),
      (0x1C, 0x0000FFFF#32), (0x20, 0x00000F0F#32)]) (v : Word32) :
    readRegister { s with ctl := s.ctl.store o v } o = v &&& mask ∧
      ∀ q, q ≠ o → readRegister { s with ctl := s.ctl.store o v } q = readRegister s q := by
  simp only [List.mem_cons, Prod.mk.injEq, List.not_mem_nil, or_false] at h
  rcases h with ⟨rfl, rfl⟩ | ⟨rfl, rfl⟩ | ⟨rfl, rfl⟩ | ⟨rfl, rfl⟩ | ⟨rfl, rfl⟩
  · refine ⟨withLow_low _ v, fun q other => ?_⟩
    unfold readRegister
    split
    case h_4 => exact absurd rfl other
    case h_5 => exact congrArg _ (withLow_high _ v)
    all_goals rfl
  · refine ⟨withHigh_high _ v, fun q other => ?_⟩
    unfold readRegister
    split
    case h_4 => exact withHigh_low _ v
    case h_5 => exact absurd rfl other
    all_goals rfl
  · refine ⟨withLow_low _ v, fun q other => ?_⟩
    unfold readRegister
    split
    case h_6 => exact absurd rfl other
    case h_7 => exact congrArg _ (withLow_high _ v)
    all_goals rfl
  · refine ⟨withHigh_high _ v, fun q other => ?_⟩
    unfold readRegister
    split
    case h_6 => exact withHigh_low _ v
    case h_7 => exact absurd rfl other
    all_goals rfl
  · refine ⟨sizes_read v, fun q other => ?_⟩
    unfold readRegister
    split
    case h_8 => exact absurd rfl other
    all_goals rfl

/-- Settles O9. -/
theorem adminRegistersStoredInOff : Obligations.AdminRegistersStoredInOff := by
  intro s v o mask h
  obtain ⟨back, others⟩ := readRegister_store (s := s) h v
  have listed : o ∈ [0x10, 0x14, 0x18, 0x1C, 0x20] := by
    simpa using List.mem_map_of_mem (f := Prod.fst) h
  have aligned : o % 4 = 0 := by
    simp only [List.mem_cons, List.not_mem_nil, or_false] at listed
    omega
  rw [exec_registerWrite, writeRegister_admin listed]
  simp only [aligned, decide_true, Bool.and_self, if_true]
  refine ⟨fun off => ⟨{ s with ctl := s.ctl.store o v }, by rw [if_pos off], back, others, ?_⟩,
    fun on => by rw [if_neg on]⟩
  exact congrArg (fun c => { s with ctl := c }) (store_frame s.ctl o v)

/-! ### Every access of the window (R171) -/

theorem low_word (b : BitVec 48) : b.extractLsb' 0 32 = BitVec.ofNat 32 b.toNat := by
  apply BitVec.eq_of_toNat_eq
  simp

theorem high_word (b : BitVec 48) : (b.extractLsb' 32 16).zeroExtend 32 = BitVec.ofNat 32 (b.toNat / 2 ^ 32) := by
  apply BitVec.eq_of_toNat_eq
  have := b.isLt
  simp [Nat.shiftRight_eq_div_pow]
  omega

theorem activeLevel_eq (s : State) : s.activeLevel = (s.disp.active.map (fun c => c.level.val)).getD 0 := by
  unfold State.activeLevel
  cases s.disp.active <;> rfl

theorem devsts_eq (s : State) : s.devsts = s.ctl.engine.code + 2 ^ 4 * (if s.admin = .idle then 0 else 1) +
    2 ^ 8 * (if s.disp.active = none then 0 else 1) +
    2 ^ 12 * (s.disp.active.map (fun c => c.level.val)).getD 0 + 2 ^ 16 * s.disp.stack.length := by
  have busy : bit s.adminBusy = if s.admin = .idle then 0 else 1 := by
    by_cases h : s.admin = .idle <;> simp [bit, State.adminBusy, h]
  have active : bit s.activeValid = if s.disp.active = none then 0 else 1 := by
    cases h : s.disp.active <;> simp [bit, State.activeValid, h]
  rw [State.devsts, busy, active, activeLevel_eq]

theorem devctl_eq (s : State) :
    s.devctl = (if s.ctl.enable then 1 else 0) + if s.ctl.pauseBit then 2 else 0 := by
  cases h : s.ctl.enable <;> cases k : s.ctl.pauseBit <;> simp [State.devctl, bit, h, k]

theorem readRegister_unlisted (s : State) {o : Nat}
    (h : o ∉ [0x00, 0x04, 0x08, 0x10, 0x14, 0x18, 0x1C, 0x20, 0x24, 0x28, 0x2C]) : readRegister s o = 0#32 := by
  simp only [List.mem_cons, List.not_mem_nil, or_false, not_or] at h
  unfold readRegister
  split
  all_goals first | rfl | omega

/-- A write to an offset that neither acts nor stores. -/
theorem writeRegister_ignored (s : State) (v : Word32) {o : Nat}
    (h : o ∉ [0x04, 0x0C, 0x24, 0x10, 0x14, 0x18, 0x1C, 0x20]) : writeRegister s o v = s := by
  simp only [List.mem_cons, List.not_mem_nil, or_false, not_or] at h
  have stored : s.ctl.store o v = s.ctl := by
    unfold Control.store
    split
    all_goals first | rfl | omega
  unfold writeRegister
  split
  case h_4 => rw [stored, ite_self]
  all_goals omega

theorem writeRegister_devctl (s : State) (v : Word32) :
    writeRegister s 0x04 v = writeDevctl s (v.getLsbD 0) (v.getLsbD 1) (v.getLsbD 2) := rfl

theorem writeNotify_eq (s : State) (v : Word32) :
    writeNotify s v = if v.getLsbD 31 then
        headUpdate s (v.extractLsb' 16 4).toFin (v.extractLsb' 0 12).toNat (v.getLsbD 24)
      else tailUpdate s (v.extractLsb' 16 4).toFin (v.extractLsb' 0 12).toNat := by
  cases h : v.getLsbD 31 <;> simp only [writeNotify, decodeNotify, h] <;> rfl

theorem exec_registerWrite_word {s : State} {o : Nat} {v : Word32} (aligned : o % 4 = 0) :
    exec (.registerWrite o 4 v) s = .next (writeRegister s o v) := by
  rw [exec_registerWrite]
  simp [aligned]

theorem exec_registerWrite_ignored {s : State} {o : Nat} {v : Word32}
    (h : o ∉ [0x04, 0x0C, 0x24, 0x10, 0x14, 0x18, 0x1C, 0x20]) : exec (.registerWrite o 4 v) s = .next s := by
  rw [exec_registerWrite, writeRegister_ignored s v h, ite_self]

/-- Settles O10. -/
theorem registerAccessesDecode : Obligations.RegisterAccessesDecode := by
  refine ⟨rfl, fun s => ⟨rfl, ?_, ?_, low_word _, high_word _, low_word _, high_word _, rfl, fun o h => ?_⟩,
    fun s v => ⟨?_, ?_, ?_, fun o h => ?_, fun o w h => ?_, fun o h => ?_⟩⟩
  · rw [← devctl_eq]
    rfl
  · rw [← devsts_eq]
    rfl
  · exact readRegister_unlisted s h
  · rw [exec_registerWrite_word rfl, writeRegister_devctl, exec_softResetRequest, exec_enable]
    split
    · rfl
    · next plain =>
      simp only [not_or, Bool.not_eq_true, Bool.not_eq_false] at plain
      rw [plain.1, plain.2]
  · rw [exec_registerWrite_word rfl, exec_completionHeadUpdate, exec_submissionTailUpdate]
    show Host.Outcome.next (writeNotify s v) = _
    rw [writeNotify_eq]
    split <;> rfl
  · rw [exec_registerWrite_word rfl]
    show Host.Outcome.next (if v.getLsbD 0 then clearFault s else s) = _
    split <;> rfl
  · refine exec_registerWrite_ignored ?_
    simp only [List.mem_cons, List.not_mem_nil, or_false, not_or] at h ⊢
    omega
  · rw [exec_registerWrite, if_neg]
    simpa [imp_iff_not_or] using h
  · refine exec_registerWrite_ignored ?_
    simp only [List.mem_cons, List.not_mem_nil, or_false, not_or]
    omega

end Sys2Proof.Machine
end

section
/-! PROOFS. The queue (O1), power-on reset (O2), dispatch (O25), the CRC (O30), the coalesce timer (O40) and the
accepted change (O42). -/

open Sys2Proof.Claims

namespace Sys2Proof.Machine

-- One proof after the other: many at once use up the memory limit.
set_option Elab.async false

/-- Settles O1. -/
theorem stepRunsFrontCommand : Obligations.StepRunsFrontCommand := by
  intro s c rest front
  simp only [step, front]

/-! ### Power-on reset (R166) -/

theorem exec_powerOnReset (s : State) : exec .powerOnReset s = .next (powerOn s) := rfl

@[simp] theorem get_replicate {α : Type} (n : Nat) (x : α) (i : Fin n) : (Vector.replicate n x).get i = x := by
  simp [Vector.get_eq_getElem]

theorem sr_reset (n : Fin 16) : State.reset.sr n = .cleared := get_replicate _ _ n

theorem cr_reset (n : Fin 8) : State.reset.cr n = .cleared := get_replicate _ _ n

/-- After a power-on reset every register but ID reads 0 (Table 11.1). -/
theorem readRegister_reset {o : Nat} (other : o ≠ 0) : readRegister State.reset o = 0#32 := by
  unfold readRegister
  split
  case h_1 => exact absurd rfl other
  all_goals rfl

/-- Settles O2. -/
theorem resetValues : Obligations.ResetValues := by
  refine ⟨exec_powerOnReset, rfl, fun o other => readRegister_reset other, rfl, rfl, rfl, rfl, rfl, rfl, rfl, rfl,
    fun n => ?_, fun n => ?_, fun i => get_replicate _ _ i, fun i => get_replicate _ _ i,
    fun p => get_replicate _ _ p, rfl, rfl, rfl, rfl, rfl, rfl, rfl, rfl⟩
  · rw [sr_reset]
    exact ⟨rfl, rfl, rfl, rfl, rfl, rfl⟩
  · rw [cr_reset]
    exact ⟨rfl, rfl, rfl, rfl⟩

/-! ### Dispatch (R53) -/

theorem WatchEntry.moved_eq (n : Fin 16) (p q : Place) (e : WatchEntry) :
    e.moved n p q = if e.ring = n ∧ e.place = p then { e with place := q } else e := by
  simp only [WatchEntry.moved, Bool.and_eq_true, decide_eq_true_eq]

/-- A move of a watched command, with the statements' wording of what moves. -/
theorem State.moveWatch_eq (s : State) (n : Fin 16) (p q : Place) :
    s.moveWatch n p q = { s with time := { s.time with watch := s.time.watch.map (fun e =>
      if e.ring = n ∧ e.place = p then { e with place := q } else e) } } := by
  simp only [State.moveWatch, funext (WatchEntry.moved_eq n p q)]

theorem totalLength_eq (op : Opcode) (f : Fields) :
    totalLength op f = match op with
      | .copy2d => f.rows * f.rowLength
      | .mark => 0
      | _ => f.length := rfl

/-- The initial CRC of Table 2.8. -/
theorem initialCrc_eq (f : Fields) (continuation : Bool) (carry : ChainCarry) :
    initialCrc f continuation carry =
      if f.flags.crc = false then none
      else if f.flags.crcSeed = false then some 0xFFFFFFFF#32
      else match continuation, carry with
        | true, .opened (some x) => some (x ^^^ 0xFFFFFFFF#32)
        | _, _ => some (f.seed ^^^ 0xFFFFFFFF#32) := by
  unfold initialCrc
  cases f.flags.crc
  · rfl
  · cases f.flags.crcSeed
    · rfl
    · cases continuation
      · rfl
      · match carry with
        | .closed => rfl
        | .opened none => rfl
        | .opened (some x) => rfl

theorem takeCredit_trigs (s : State) (f : Fields) :
    takeCredit s f = { s with
      trigs := if f.flags.trigWait = true then
          s.trigs.set f.line { s.trig f.line with credits := (s.trig f.line).credits - 1 }
        else s.trigs } := by
  unfold takeCredit
  split <;> rfl

/-- Settles O25. -/
theorem dispatchFormsContext : Obligations.DispatchFormsContext := by
  intro s n h op head execute
  simp only [dispatch, head, execute]
  rw [takeCredit_trigs, State.moveWatch_eq]
  simp only [newContext, initialCrc_eq, totalLength_eq]
  rfl

/-! ### The CRC (R38, R39) -/

theorem crcFinal_crcFinal (x : Word32) : crcFinal (crcFinal x) = x := by
  simp only [crcFinal, BitVec.xor_assoc, BitVec.xor_self, BitVec.xor_zero]

theorem crcRun_append (x : Word32) (as bs : List Byte) : crcRun x (as ++ bs) = crcRun (crcRun x as) bs :=
  List.foldl_append

/-- The CRC-32C of the digits 1 to 9. -/
theorem crc_check : crcFinal (crcRun 0xFFFFFFFF#32
    [0x31#8, 0x32#8, 0x33#8, 0x34#8, 0x35#8, 0x36#8, 0x37#8, 0x38#8, 0x39#8]) = 0xE3069283#32 := by
  decide +kernel

/-- Settles O30: the final step is its own inverse at seeding. -/
theorem crcSeedsContinue : Obligations.CrcSeedsContinue :=
  ⟨fun x as bs => by rw [crcFinal_crcFinal, crcRun_append], crc_check⟩

/-! ### The coalesce timer (R128) -/

theorem timerDue_iff {s : State} {n : Fin 8} {b : Tick} (running : (s.cr n).timer = .running b) :
    s.timerDue n = true ↔ (s.cr n).coalesceTime ≠ 0 ∧ (s.cr n).coalesceTime ≤ (s.time.tick - b).toNat := by
  simp only [State.timerDue, running, Bool.and_eq_true, decide_eq_true_eq]
  exact Iff.rfl

theorem exec_coalesceTimerElapse (s : State) (n : Fin 8) : exec (.coalesceTimerElapse n) s = .next
    (if s.timerDue n then s.setCr n { s.cr n with timer := (s.cr n).timer.elapse } else s) := rfl

/-- Settles O40. -/
theorem coalesceTimerElapses : Obligations.CoalesceTimerElapses := by
  intro s n b running
  rw [exec_coalesceTimerElapse]
  refine ⟨fun timed reached => ?_, fun early => ?_⟩
  · rw [if_pos ((timerDue_iff running).mpr ⟨timed, reached⟩), running]
    rfl
  · rw [if_neg]
    rw [timerDue_iff running]
    omega

/-! ### The accepted change (R114, R117) -/

theorem EdgeSelect.counts_iff (e : EdgeSelect) (filtered : Bool) :
    e.counts (!filtered) = true ↔
      e = .both ∨ (e = .rising ∧ filtered = false) ∨ (e = .falling ∧ filtered = true) := by
  cases e <;> cases filtered <;> simp [EdgeSelect.counts]

theorem TriggerLine.accepted_eq (t : TriggerLine) :
    t.accepted = { t with
      filtered := !t.filtered
      runCount := 0
      credits := if t.edge.counts (!t.filtered) && t.credits < 255 then t.credits + 1 else t.credits
      overrun := t.overrun || (t.edge.counts (!t.filtered) && 255 ≤ t.credits) } := by
  unfold TriggerLine.accepted
  cases t.edge.counts (!t.filtered)
  · simp
  · by_cases below : t.credits < 255
    · simp [Config.creditLimit, below, Nat.not_le.mpr below]
    · simp [Config.creditLimit, below, Nat.not_lt.mp below]

/-- The row of the change and the sample that completes its run are one event (log entry 15). -/
theorem exec_acceptedChange {s : State} {i : Fin 8} (reached : (s.trig i).filterLength ≤ (s.trig i).runCount)
    {c : Instr} (h : c ∈ [Instr.triggerChangeAccepted i, .triggerSample i (!(s.trig i).filtered)]) :
    exec c s = .next (acceptChange s i) := by
  simp only [List.mem_cons, List.not_mem_nil, or_false] at h
  rcases h with rfl | rfl
  · show Host.Outcome.next (if _ then acceptChange s i else s) = _
    rw [if_pos reached]
  · exact exec_triggerSample_of_le (by simp) reached

/-- Settles O42. -/
theorem acceptedChangeCountsCredit : Obligations.AcceptedChangeCountsCredit := by
  intro s i reached c h
  rw [exec_acceptedChange reached h]
  refine ⟨_, _, EdgeSelect.counts_iff _ _, rfl, fun counted fresh => ?_, fun quiet => ?_⟩
  · simp only [acceptChange, counted, fresh, Bool.true_and, decide_true, if_true]
    rw [TriggerLine.accepted_eq, counted, fresh]
    rfl
  · have stays : ¬ ((s.trig i).edge.counts (!(s.trig i).filtered) && decide ((s.trig i).credits = 0)) = true := by
      rcases quiet with uncounted | spent
      · simp [uncounted]
      · simp [spent]
    simp only [acceptChange, if_neg stays]
    rw [TriggerLine.accepted_eq]

end Sys2Proof.Machine
end

section
/-! PROOFS. Answered transactions: what an answer delivers to its requester, the drain of a soft reset (O3), the
response timeout (O17), and the answers to the units of the lane (O18, O19). -/

open Sys2Proof.Claims

namespace Sys2Proof.Machine

-- One proof after the other: many at once use up the memory limit.
set_option Elab.async false

/-! ### The delivery of an answer (R87) -/

/-- What an answer of the interconnect brings about at the requester of its transaction: a success with the given
bytes, or an error (Table 4.8). -/
def deliver (req : Request) (ok : Bool) (data : Line) (s : State) : State :=
  match req.kind with
  | .recordFetch n => if ok then fetched n data s else failFetch s n
  | .readUnit k => readAnswered s k (if ok then .success data else .error)
  | .writeUnit k => writeAnswered s k ok
  | .completionWrite n => if ok then recordWritten s n else recordFailed s n
  | .messageWrite n => if ok then messageWritten s n else messageFailed s n req.address
  | .resultWrite => resultAnswered s ok
  | .faultMessage => faultMessaged s

theorem deliver_error (req : Request) (data : Line) (s : State) : deliver req false data s = deliverError req s := by
  unfold deliver deliverError
  cases req.kind <;> rfl

/-- The event of an awaited answer whose effect at its requester is `f`: its entry leaves the list, and in RESETTING
that is all (R87, R89). -/
def State.answered (s : State) (t : Transaction) (f : State → State) : Host.Outcome State Fault Refusal :=
  .next (if s.ctl.engine = .resetting then drainCheck (s.retire t.id) else f (s.retire t.id))

theorem answered_working {s : State} (working : s.ctl.engine ≠ .resetting) (t : Transaction) (f : State → State) :
    s.answered t f = .next (f (s.retire t.id)) := by
  rw [State.answered, if_neg working]

theorem answered_resetting {s : State} (resetting : s.ctl.engine = .resetting) (t : Transaction) (f : State → State) :
    s.answered t f = .next (drainCheck (s.retire t.id)) := by
  rw [State.answered, if_pos resetting]

theorem answer_awaited {s : State} {t : Transaction} {act : Request → Option (State → State)} (f : State → State)
    (awaited : s.awaits t) (kind : act t.request = some f) : answer s t.id act = s.answered t f := by
  have found : s.port.find t.id = some t := awaited
  simp only [answer, found, kind, State.answered]
  split <;> rfl

section Rows

variable {s : State} {t : Transaction} (awaited : s.awaits t)

include awaited

theorem exec_recordFetchSuccess {n : Fin 16} (kind : t.request.kind = .recordFetch n) (r : Line) :
    exec (.recordFetchSuccess t.id r) s = s.answered t (fetched n r) := by
  show execRecordFetchSuccess t.id r s = _
  exact answer_awaited _ awaited (by rw [kind])

theorem exec_recordFetchError {n : Fin 16} (kind : t.request.kind = .recordFetch n) :
    exec (.recordFetchError t.id) s = s.answered t (fun u => failFetch u n) := by
  show execRecordFetchError t.id s = _
  exact answer_awaited _ awaited (by rw [kind])

theorem exec_readUnitAnswer {k : Nat} (kind : t.request.kind = .readUnit k) (a : ReadAnswer) :
    exec (.readUnitAnswer t.id a) s = s.answered t (fun u => readAnswered u k a) := by
  show execReadUnitAnswer t.id a s = _
  exact answer_awaited _ awaited (by rw [kind])

theorem exec_writeUnitAnswer {k : Nat} (kind : t.request.kind = .writeUnit k) (ok : Bool) :
    exec (.writeUnitAnswer t.id ok) s = s.answered t (fun u => writeAnswered u k ok) := by
  show execWriteUnitAnswer t.id ok s = _
  exact answer_awaited _ awaited (by rw [kind])

theorem exec_completionWriteAck {n : Fin 8} (kind : t.request.kind = .completionWrite n) :
    exec (.completionWriteAck t.id) s = s.answered t (fun u => recordWritten u n) := by
  show execCompletionWriteAck t.id s = _
  exact answer_awaited _ awaited (by rw [kind])

theorem exec_completionWriteError {n : Fin 8} (kind : t.request.kind = .completionWrite n) :
    exec (.completionWriteError t.id) s = s.answered t (fun u => recordFailed u n) := by
  show execCompletionWriteError t.id s = _
  exact answer_awaited _ awaited (by rw [kind])

theorem exec_messageWriteAck_answered {n : Fin 8} (kind : t.request.kind = .messageWrite n) :
    exec (.messageWriteAck t.id) s = s.answered t (fun u => messageWritten u n) := by
  show execMessageWriteAck t.id s = _
  exact answer_awaited _ awaited (by rw [kind])

theorem exec_messageWriteError {n : Fin 8} (kind : t.request.kind = .messageWrite n) :
    exec (.messageWriteError t.id) s = s.answered t (fun u => messageFailed u n t.request.address) := by
  show execMessageWriteError t.id s = _
  exact answer_awaited _ awaited (by rw [kind])

theorem exec_resultWriteAnswer (kind : t.request.kind = .resultWrite) (ok : Bool) :
    exec (.resultWriteAnswer t.id ok) s = s.answered t (fun u => resultAnswered u ok) := by
  show execResultWriteAnswer t.id ok s = _
  exact answer_awaited _ awaited (by rw [kind])

theorem exec_faultMessageAnswer (kind : t.request.kind = .faultMessage) (ok : Bool) :
    exec (.faultMessageAnswer t.id ok) s = s.answered t faultMessaged := by
  show execFaultMessageAnswer t.id ok s = _
  exact answer_awaited _ awaited (by rw [kind])

/-- The row that answers an awaited transaction, whatever its kind. -/
theorem exec_answerOf (ok : Bool) (d : Line) :
    exec (answerOf t ok d) s = s.answered t (deliver t.request ok d) := by
  unfold answerOf deliver
  cases kind : t.request.kind with
  | recordFetch n =>
    cases ok
    · exact exec_recordFetchError awaited kind
    · exact exec_recordFetchSuccess awaited kind d
  | readUnit k => exact exec_readUnitAnswer awaited kind _
  | writeUnit k => exact exec_writeUnitAnswer awaited kind ok
  | completionWrite n =>
    cases ok
    · exact exec_completionWriteError awaited kind
    · exact exec_completionWriteAck awaited kind
  | messageWrite n =>
    cases ok
    · exact exec_messageWriteError awaited kind
    · exact exec_messageWriteAck_answered awaited kind
  | resultWrite => exact exec_resultWriteAnswer awaited kind ok
  | faultMessage => exact exec_faultMessageAnswer awaited kind ok

end Rows

theorem State.retire_eq (s : State) (id : Fin 32) :
    s.retire id = { s with port := { s.port with outstanding := without s id } } := rfl

/-! ### The soft reset (R163, R164) -/

theorem softResetValues_eq (s : State) : softResetValues s = softResetState s := rfl

theorem drainCheck_resetting {s : State} (h : s.ctl.engine = .resetting) : drainCheck s = drained s := by
  simp only [drainCheck, h, decide_true, Bool.true_and, List.isEmpty_iff, softResetValues_eq]
  rfl

theorem softReset_of_working {s : State} (h : s.ctl.engine ≠ .resetting) :
    softReset s = drained ((withdrawAll s).setEngine .resetting) := by
  rw [softReset, if_neg h, drainCheck_resetting (State.setEngine_engine _ _)]

theorem exec_transactionTimeout {s : State} {t : Transaction} (awaited : s.awaits t) :
    exec (.transactionTimeout t.id) s = .next (if s.timedOut t then abandon s t else s) := by
  have found : s.port.find t.id = some t := awaited
  show execTransactionTimeout t.id s = _
  simp only [execTransactionTimeout, found]

theorem timedOut_iff (s : State) (t : Transaction) :
    s.timedOut t = true ↔ s.ctl.responseTimeout ≠ 0 ∧ s.ctl.responseTimeout ≤ (s.time.tick - t.issued).toNat := by
  simp only [State.timedOut, Bool.and_eq_true, decide_eq_true_eq]
  exact Iff.rfl

/-- Settles O3. -/
theorem softResetOutcomes : Obligations.SoftResetOutcomes := by
  refine ⟨fun s e p r asks => ?_, fun s e p plain => ?_, fun s t awaited resetting => ⟨fun ok d => ?_, fun set due => ?_⟩⟩
  · rw [exec_softResetRequest, writeDevctl_reset asks]
    refine ⟨fun resetting => ?_, fun working quiet => ?_, fun working busy => ?_⟩
    · rw [softReset, if_pos resetting]
    · rw [softReset_of_working working]
      exact congrArg _ (if_pos quiet)
    · rw [softReset_of_working working]
      exact congrArg _ (if_neg busy)
  · cases e with
    | true => rfl
    | false =>
      have disabled : s.ctl.enable = false := plain.resolve_left Bool.false_ne_true
      rw [exec_softResetRequest, exec_pause, disabled]
      rfl
  · rw [exec_answerOf awaited, answered_resetting resetting]
    exact congrArg _ (drainCheck_resetting resetting)
  · rw [exec_transactionTimeout awaited, if_pos ((timedOut_iff s t).mpr ⟨set, due⟩), abandon, if_pos resetting]
    exact congrArg _ (drainCheck_resetting resetting)

/-! ### The response timeout (R88) -/

theorem exec_lateResponse {s : State} {id : Fin 32} (gone : s.port.find id = none) (held : id ∈ s.port.abandoned) :
    exec (.lateResponse id) s = .next (s.freeAbandoned id) := by
  show execLateResponse id s = _
  simp only [execLateResponse, answer, gone, List.contains_iff_mem, held, if_true]

/-- Settles O17: the requester gets the delivery that an error answer of the interconnect makes. -/
theorem timeoutAbandonsIdentifier : Obligations.TimeoutAbandonsIdentifier := by
  refine ⟨fun s id gone held => exec_lateResponse gone held, fun s t awaited =>
    ⟨fun working d => ?_, fun set due working => ?_, fun early => ?_⟩⟩
  · rw [exec_answerOf awaited, answered_working working, deliver_error]
    rfl
  · rw [exec_transactionTimeout awaited, if_pos ((timedOut_iff s t).mpr ⟨set, due⟩), abandon, if_neg working]
    rfl
  · rw [exec_transactionTimeout awaited, if_neg]
    rw [timedOut_iff]
    omega

/-! ### The answers to read and write units (R74, R75, R96) -/

theorem getElem?_putBytes {buffer bytes : List Byte} {o : Nat} (fits : o + bytes.length ≤ buffer.length) (i : Nat) :
    (putBytes buffer o bytes)[i]? = if o ≤ i ∧ i < o + bytes.length then bytes[i - o]? else buffer[i]? := by
  have front : (buffer.take o).length = o := by simp; omega
  unfold putBytes
  rw [List.append_assoc, List.getElem?_append, front]
  split
  · next before => rw [if_neg (by omega), List.getElem?_take_of_lt before]
  · next after =>
    rw [List.getElem?_append]
    split
    · next inside => rw [if_pos (by omega)]
    · next behind =>
      rw [if_neg (by omega), List.getElem?_drop]
      congr 1
      omega

theorem countSubstituted_window (s : State) (j : Fin 8) (mb sb n : Nat) :
    countSubstituted s (.window j mb sb) n =
      { s.setWin j { s.win j with count := saturate Config.countLimit (s.win j).count n } with
        disp := { s.disp with active := s.disp.active.map (fun c => { c with substituted := true }) } } := rfl

/-- A read counts under its window mapping (R96). -/
theorem countSubstituted_win (s : State) (m : Mapping) (n : Nat) (i : Fin 8) :
    (countSubstituted s m n).win i = match m with
      | .own => s.win i
      | .window j _ _ =>
        if i = j then { s.win i with count := min 0xFFFFFFFF ((s.win i).count + n) } else s.win i := by
  cases m with
  | own => rfl
  | window j mb sb =>
    rw [countSubstituted_window]
    refine (State.win_setWin s j i _).trans ?_
    by_cases same : i = j
    · subst same
      simp only [if_true]
      rfl
    · simp only [if_neg same]

/-- Beyond the counts, a counted read only marks its context SUBSTITUTED (R96). -/
theorem countSubstituted_eq (s : State) (m : Mapping) (n : Nat) :
    countSubstituted s m n = { s with
      wins := (countSubstituted s m n).wins
      disp := match m with
        | .own => s.disp
        | .window _ _ _ => { s.disp with active := s.disp.active.map (fun c => { c with substituted := true }) } } := by
  cases m <;> rfl

section Read

variable {s : State} {k : Nat} {g : Segment} {u : TransferUnit}

theorem readAnswered_success (segment : s.lane.segment = some g) (unit : g.reads[k]? = some u)
    (clean : s.lane.fault = .none) (d : Line) :
    readAnswered s k (.success d) = endReading (countSubstituted
      { s with lane := (s.lane.withRead g k .success).store u (d.toList.take (unitLength g.length u.index)) }
      (if u.second then g.map2 else g.map1) (unitLength g.length u.index)) := by
  simp only [readAnswered, segment, unit, clean, if_true]

theorem readAnswered_absorbed (segment : s.lane.segment = some g) (unit : g.reads[k]? = some u)
    (faulted : s.lane.fault ≠ .none) (d : Line) :
    readAnswered s k (.success d) = endReading { s with lane := s.lane.withRead g k .success } := by
  simp only [readAnswered, segment, unit, if_neg faulted]

theorem readAnswered_error (segment : s.lane.segment = some g) (unit : g.reads[k]? = some u) :
    readAnswered s k .error =
      endReading (withdrawLane { s with lane := { s.lane.withRead g k .error with fault := .read } }) := by
  simp only [readAnswered, segment, unit]

end Read

theorem Lane.store_eq (l : Lane) (u : TransferUnit) (bytes : List Byte) :
    l.store u bytes = { l with
      buffer1 := if u.second then l.buffer1 else putBytes l.buffer1 (64 * u.index) bytes
      buffer2 := if u.second then putBytes l.buffer2 (64 * u.index) bytes else l.buffer2 } := by
  unfold Lane.store
  cases u.second <;> rfl

/-- Settles O18. -/
theorem readAnswerRecorded : Obligations.ReadAnswerRecorded := by
  refine ⟨fun buffer bytes o i fits => getElem?_putBytes fits i,
    fun s t k g u awaited kind working segment unit => ⟨fun d clean => ?_, fun d faulted => ?_, ?_⟩⟩
  · rw [exec_readUnitAnswer awaited kind, answered_working working, readAnswered_success (s := s.retire t.id) segment unit clean]
    refine ⟨_, rfl, ?_, countSubstituted_win _ _ _, ?_⟩
    · rw [countSubstituted_eq, Lane.store_eq]
      rfl
    · rw [countSubstituted_eq]
      exact ⟨rfl, rfl, rfl, rfl, rfl, rfl, rfl⟩
  · rw [exec_readUnitAnswer awaited kind, answered_working working, readAnswered_absorbed (s := s.retire t.id) segment unit faulted]
    rfl
  · rw [exec_readUnitAnswer awaited kind, answered_working working, readAnswered_error (s := s.retire t.id) segment unit]
    rfl

/-- Settles O19. -/
theorem writeAnswerRecorded : Obligations.WriteAnswerRecorded := by
  intro s t k g ok awaited kind working segment
  rw [exec_writeUnitAnswer awaited kind, answered_working working]
  have held : (s.retire t.id).lane.segment = some g := segment
  refine ⟨fun yes => ?_, fun no => ?_⟩
  · subst yes
    simp only [writeAnswered, held, if_true]
    rfl
  · subst no
    simp only [writeAnswered, held, Bool.false_eq_true, if_false]
    rfl

end Sys2Proof.Machine
end

section
/-! PROOFS. Searches in ascending order with wrap, and the Completion Unit: what it presents (O31), acknowledged and
failed records (O32, O33), rings reset or deleted meanwhile (O34), failed messages (O36) and the fault capture (O37). -/

open Sys2Proof.Claims

namespace Sys2Proof.Machine

-- One proof after the other: many at once use up the memory limit.
set_option Elab.async false

/-! ### Rotations (R9, R52, R85) -/

/-- A search through a list that ascends in a measure ends at the least that passes. -/
theorem find?_eq_some_iff_least {α : Type} {l : List α} {d : α → Nat} (asc : l.Pairwise (fun a b => d a < d b))
    {p : α → Bool} {x : α} :
    l.find? p = some x ↔ (x ∈ l ∧ p x = true) ∧ ∀ y ∈ l, p y = true → d x ≤ d y := by
  induction l with
  | nil => simp
  | cons a l ih =>
    obtain ⟨first, rest⟩ := List.pairwise_cons.mp asc
    by_cases pa : p a = true
    · rw [List.find?_cons_of_pos pa]
      constructor
      · intro same
        cases same
        exact ⟨⟨List.mem_cons_self, pa⟩, fun y mem _ => by
          rcases List.mem_cons.mp mem with rfl | behind
          · exact Nat.le_refl _
          · exact Nat.le_of_lt (first y behind)⟩
      · rintro ⟨⟨mem, -⟩, least⟩
        rcases List.mem_cons.mp mem with rfl | behind
        · rfl
        · exact absurd (least a List.mem_cons_self pa) (Nat.not_le.mpr (first x behind))
    · rw [List.find?_cons_of_neg pa, ih rest]
      have passing : ∀ y, y ∈ a :: l ∧ p y = true ↔ y ∈ l ∧ p y = true := fun y => by
        rw [List.mem_cons]
        constructor
        · rintro ⟨rfl | mem, py⟩
          · exact absurd py pa
          · exact ⟨mem, py⟩
        · exact fun ⟨mem, py⟩ => ⟨.inr mem, py⟩
      rw [passing]
      exact and_congr_right fun _ => forall_congr' fun y => by rw [← and_imp, ← and_imp, passing]

theorem mem_rotate {n : Nat} {l : List (Fin n)} {last x : Fin n} : x ∈ rotate l last ↔ x ∈ l := by
  simp only [rotate, List.mem_append, List.mem_filter, decide_eq_true_eq, ← and_or_left]
  exact and_iff_left (lt_or_ge last x)

theorem rotate_all8_ascends (last : Fin 8) :
    (rotate all8 last).Pairwise (fun a b => tableDistance 8 last.val a.val < tableDistance 8 last.val b.val) := by
  revert last
  decide

theorem rotate_allSr_ascends (last : Fin 16) :
    (rotate allSr last).Pairwise (fun a b => tableDistance 16 last.val a.val < tableDistance 16 last.val b.val) := by
  revert last
  decide +kernel

theorem rotate_transferSr_ascends (last : Fin 16) :
    (rotate transferSr last).Pairwise (fun a b => searchDistance last a < searchDistance last b) := by
  revert last
  decide +kernel

theorem mem_all8 (n : Fin 8) : n ∈ all8 := by
  rw [all8_eq_finRange]
  exact List.mem_finRange n

theorem mem_allSr (n : Fin 16) : n ∈ allSr := by
  rw [allSr_eq_finRange]
  exact List.mem_finRange n

theorem find?_rotate_all8 {last n : Fin 8} {p : Fin 8 → Bool} :
    (rotate all8 last).find? p = some n ↔
      p n = true ∧ ∀ x, p x = true → tableDistance 8 last.val n.val ≤ tableDistance 8 last.val x.val := by
  simp only [find?_eq_some_iff_least (rotate_all8_ascends last), mem_rotate, mem_all8, true_and, forall_const]

theorem find?_rotate_allSr {last n : Fin 16} {p : Fin 16 → Bool} :
    (rotate allSr last).find? p = some n ↔
      p n = true ∧ ∀ x, p x = true → tableDistance 16 last.val n.val ≤ tableDistance 16 last.val x.val := by
  simp only [find?_eq_some_iff_least (rotate_allSr_ascends last), mem_rotate, mem_allSr, true_and, forall_const]

theorem find?_rotate_transferSr {last n : Fin 16} {p : Fin 16 → Bool} :
    (rotate transferSr last).find? p = some n ↔
      (n ≠ 0 ∧ p n = true) ∧ ∀ x, x ≠ 0 → p x = true → searchDistance last n ≤ searchDistance last x := by
  simp only [find?_eq_some_iff_least (rotate_transferSr_ascends last), mem_rotate, mem_transferSr]

/-! ### The completion record in memory (Table 11.6) -/

theorem littleEndian_eq (l : List Byte) : littleEndian l = leValue l := by
  induction l with
  | nil => rfl
  | cons b l ih => simp only [littleEndian, List.foldr_cons, leValue, ← ih]

theorem bit_eq (b : Bool) : bit b = if b then 1 else 0 := rfl

theorem mul_bit (k : Nat) (b : Bool) : k * bit b = if b then k else 0 := by
  cases b <;> simp [bit]

theorem CplRecord.bytes_length (rec : CplRecord) (phase : Bool) : (rec.bytes phase).length = 16 := by
  simp [CplRecord.bytes, leBytes_length]

theorem CplRecord.bytes_field (rec : CplRecord) (phase : Bool) {f : Nat × Nat × Nat}
    (h : f ∈ [(0, 2, rec.tag.toNat), (2, 1, rec.srId.val), (3, 1, rec.status.code), (4, 2, rec.srHead),
      (6, 1, bit rec.late + 2 * bit rec.preempted + 4 * bit rec.substituted + 8 * bit rec.chainOpen),
      (7, 1, bit phase), (8, 4, rec.result.toNat), (12, 4, rec.bytesDone)]) :
    leValue (((rec.bytes phase).drop f.1).take f.2.1) = f.2.2 % 256 ^ f.2.1 := by
  rw [← leValue_leBytes]
  simp only [List.mem_cons, List.not_mem_nil, or_false] at h
  rcases h with rfl | rfl | rfl | rfl | rfl | rfl | rfl | rfl <;> rfl

/-! ### Whose turn it is (R18, R85, R129) -/

theorem ringFree_iff (s : State) (n : Fin 8) : s.ringFree n = true ↔ noWrite s n := by
  simp only [State.ringFree, noWrite, Bool.and_eq_true, Bool.not_eq_true', decide_eq_true_eq, and_assoc]

theorem messageAllowed_iff (s : State) (n : Fin 8) : s.messageAllowed n = true ↔ messageMay s n := by
  simp only [State.messageAllowed, State.messageDue, messageMay, Bool.and_eq_true, Bool.or_eq_true,
    decide_eq_true_eq, ringFree_iff, and_assoc]
  exact Iff.rfl

theorem recordAllowed_iff (s : State) (n : Fin 8) : s.recordAllowed n = true ↔ recordMay s n := by
  simp only [State.recordAllowed, recordMay, Bool.and_eq_true, decide_eq_true_eq, ringFree_iff, and_assoc,
    Bool.not_eq_true', ← messageAllowed_iff, Bool.not_eq_true]

theorem nextCompletion_iff (s : State) (n : Fin 8) : s.nextCompletion = some n ↔ turnOf s n := by
  simp only [State.nextCompletion, find?_rotate_all8, turnOf, Bool.or_eq_true, messageAllowed_iff, recordAllowed_iff]

theorem nextCompletion_eq_none {s : State} (h : ∀ n, ¬ turnOf s n) : s.nextCompletion = none := by
  rw [Option.eq_none_iff_forall_ne_some]
  exact fun n e => h n ((nextCompletion_iff s n).mp e)

theorem exec_completionWriteIssue (s : State) (n : Fin 8) : exec (.completionWriteIssue n) s = .next
    (if s.port.completion.isNone && s.nextCompletion = some n && s.recordAllowed n then presentRecord s n else s) := rfl

theorem exec_messageWriteIssue (s : State) (n : Fin 8) : exec (.messageWriteIssue n) s = .next
    (if s.port.completion.isNone && s.nextCompletion = some n && s.messageAllowed n then presentMessage s n else s) := rfl

/-- Settles O31. -/
theorem completionUnitPresents : Obligations.CompletionUnitPresents := by
  refine ⟨fun rec phase => ⟨rec.bytes_length phase, fun f h => ?_⟩, rfl, rfl, fun s n => rfl, fun s n =>
    ⟨fun rec rest free turn may outbound => ?_, fun free turn may => ?_, fun not => ?_⟩, fun s not => ?_⟩
  · rw [littleEndian_eq]
    refine rec.bytes_field phase ?_
    rw [mul_bit, mul_bit, mul_bit]
    exact h
  · have next := (nextCompletion_iff s n).mpr turn
    have allowed := (recordAllowed_iff s n).mpr may
    have unmessaged : s.messageAllowed n = false := by
      rw [← Bool.not_eq_true, messageAllowed_iff]
      exact may.2.2.2.2
    refine ⟨presentRecord s n, ?_, ?_, ?_, ?_⟩
    · simp [exec_completionWriteIssue, free, next, allowed]
    · simp [exec_messageWriteIssue, unmessaged]
    · simp [presentCompletion, free, next, unmessaged]
    · simp only [presentRecord, recordRequest, outbound]
      rfl
  · have next := (nextCompletion_iff s n).mpr turn
    have allowed := (messageAllowed_iff s n).mpr may
    have unrecorded : s.recordAllowed n = false := by simp [State.recordAllowed, allowed]
    refine ⟨presentMessage s n, ?_, ?_, ?_, rfl⟩
    · simp [exec_messageWriteIssue, free, next, allowed]
    · simp [exec_completionWriteIssue, unrecorded]
    · simp [presentCompletion, free, next, allowed]
  · rw [exec_completionWriteIssue, exec_messageWriteIssue]
    have blocked : (s.port.completion.isNone && decide (s.nextCompletion = some n)) = false := by
      rw [← Bool.not_eq_true]
      simp only [Bool.and_eq_true, Option.isNone_iff_eq_none, decide_eq_true_eq, nextCompletion_iff]
      tauto
    simp [blocked]
  · unfold presentCompletion
    rcases not with presented | nobody
    · obtain ⟨q, hq⟩ := Option.ne_none_iff_exists'.mp presented
      rw [hq]
    · rw [nextCompletion_eq_none nobody]
      split <;> rfl

/-! ### Records written (R18, R127) -/

section Record

variable {s : State} {n : Fin 8}

theorem CplRing.written_eq {c : CplRing} {rec : CplRecord} {rest : List CplRecord} (h : c.outbound = rec :: rest)
    (tick : Tick) : c.written tick = { c with
      outbound := rest
      reserved := c.reserved - 1
      producer := (c.producer + 1) % 2 ^ c.log2
      phase := if (c.producer + 1) % 2 ^ c.log2 = 0 then !c.phase else c.phase
      recordWrite := false
      unsignalled := if rec.noIntr then c.unsignalled else min 4095 (c.unsignalled + 1)
      timer := if !rec.noIntr && c.unsignalled = 0 then .running tick else c.timer } := by
  simp only [CplRing.written, h, CplRing.signalled]
  cases rec.noIntr
  · simp
    exact ⟨rfl, rfl, rfl⟩
  · simp
    exact ⟨rfl, rfl⟩

theorem recordWritten_of_kept (kept : s.leftWrite n = false) (unreset : (s.cr n).resetWrite = false) :
    recordWritten s n = abortFinish (s.setCr n ((s.cr n).written s.time.tick)) := by
  simp [recordWritten, kept, unreset]

theorem recordFailed_of_kept (kept : s.leftWrite n = false) (unreset : (s.cr n).resetWrite = false) :
    recordFailed s n = if n = 0 then halt (reportFault (s.setCr n (s.cr n).faultedRing) .adminWrite 0 (s.cr n).writeAddress)
      else abortFinish (reportFault (s.setCr n (s.cr n).faultedRing) .crWrite (n.castLE (by decide))
        (s.cr n).writeAddress) := by
  simp [recordFailed, kept, unreset]

end Record

/-- What an answered write leaves as it was when it changes its own completion ring alone. -/
theorem onlyRing_setCr_retire (s : State) (id : Fin 32) (n : Fin 8) (c : CplRing) :
    (∀ j, j ≠ n → ((s.retire id).setCr n c).cr j = s.cr j) ∧ ((s.retire id).setCr n c).srs = s.srs ∧
      sameBlocks s ((s.retire id).setCr n c) ∧ ((s.retire id).setCr n c).time = s.time ∧
      ((s.retire id).setCr n c).admin = s.admin ∧
      ((s.retire id).setCr n c).port = { s.port with outstanding := without s id } :=
  ⟨fun j other => State.cr_setCr_ne _ n j c other, rfl, sameBlocks_setCr_retire s id n c, rfl, rfl, rfl⟩

/-- Settles O32. -/
theorem recordAcknowledged : Obligations.RecordAcknowledged := by
  intro s t n rec rest awaited kind working kept unreset outbound
  refine ⟨(s.retire t.id).setCr n ((s.cr n).written s.time.tick), ?_, ?_, onlyRing_setCr_retire s t.id n _⟩
  · rw [exec_completionWriteAck awaited kind, answered_working working,
      recordWritten_of_kept (s := s.retire t.id) kept unreset]
    rfl
  · rw [State.cr_setCr_self, CplRing.written_eq outbound]

/-- The halt of R161, with the withdrawals of R162. -/
theorem halt_eq (s : State) : halt s = halted s := by
  unfold halt halted
  cases s.works
  · rfl
  · simp only [if_true, Bool.true_eq_false, if_false]
    unfold withdrawCompletion
    rcases s.port.completion with _ | ⟨kind, address, size, data⟩
    · rfl
    · cases kind <;> rfl

/-- Settles O33. -/
theorem recordWriteFailureFaultsRing : Obligations.RecordWriteFailureFaultsRing := by
  intro s t n awaited kind working kept unreset
  have failed := recordFailed_of_kept (s := s.retire t.id) kept unreset
  refine ⟨(s.retire t.id).setCr n (s.cr n).faultedRing, n.castLE (by decide), rfl, fun other => ?_, fun zero => ?_, ?_,
    onlyRing_setCr_retire s t.id n _⟩
  · rw [exec_completionWriteError awaited kind, answered_working working, failed, if_neg other]
    rfl
  · rw [exec_completionWriteError awaited kind, answered_working working, failed, if_pos zero, halt_eq]
    rfl
  · rw [State.cr_setCr_self]
    rfl

/-! ### Rings reset or deleted meanwhile (R20, R133, R141) -/

theorem CplRing.retired_eq {c : CplRing} {rec : CplRecord} {rest : List CplRecord} (h : c.outbound = rec :: rest) :
    c.retired = { c with
      outbound := rest
      reserved := c.reserved - 1
      discarded := min 0xFFFFFFFF (c.discarded + 1)
      recordWrite := false, resetWrite := false } := by
  simp only [CplRing.retired, CplRing.discardOldest, h]
  rfl

theorem recordWritten_of_reset {s : State} {n : Fin 8} (kept : s.leftWrite n = false)
    (reset : (s.cr n).resetWrite = true) : recordWritten s n = abortFinish (s.setCr n (s.cr n).retired) := by
  simp [recordWritten, kept, reset]

theorem recordFailed_of_reset {s : State} {n : Fin 8} (kept : s.leftWrite n = false)
    (reset : (s.cr n).resetWrite = true) : recordFailed s n = recordWritten s n := by
  simp [recordWritten, recordFailed, kept, reset]

/-- After RESET_CR an answered message only returns to none, success and error alike (R133). -/
theorem deliver_message_of_reset {s : State} {n : Fin 8} {req : Request} (kind : req.kind = .messageWrite n)
    (kept : s.leftWrite n = false) (reset : (s.cr n).resetWrite = true) (ok : Bool) (d : Line) :
    deliver req ok d s = s.setCr n { s.cr n with message := .none, resetWrite := false } := by
  cases ok <;> simp [deliver, kind, messageWritten, messageFailed, kept, reset]

/-- After DELETE_CR an answer only clears the marker of the write left in flight (R133, R141). -/
theorem deliver_of_left {s : State} {n : Fin 8} {req : Request}
    (kind : req.kind = .completionWrite n ∨ req.kind = .messageWrite n) (left : s.leftWrite n = true) (ok : Bool)
    (d : Line) : deliver req ok d s = s.setLeftWrite n false := by
  rcases kind with kind | kind <;> cases ok <;>
    simp [deliver, kind, recordWritten, recordFailed, messageWritten, messageFailed, left]

/-- Settles O34. -/
theorem resetRingIgnoresAnswer : Obligations.ResetRingIgnoresAnswer := by
  refine ⟨fun s t n rec rest awaited kind working kept reset outbound => ?_,
    fun s t n ok d awaited kind working kept reset => ?_, fun s t n ok d awaited kind working left => ?_⟩
  · rw [exec_completionWriteError awaited kind, exec_completionWriteAck awaited kind, answered_working working,
      answered_working working, recordFailed_of_reset (s := s.retire t.id) kept reset,
      recordWritten_of_reset (s := s.retire t.id) kept reset]
    refine ⟨rfl, (s.retire t.id).setCr n (s.cr n).retired, rfl, ?_, onlyRing_setCr_retire s t.id n _⟩
    rw [State.cr_setCr_self, CplRing.retired_eq outbound]
  · rw [exec_answerOf awaited, answered_working working, deliver_message_of_reset (s := s.retire t.id) kind kept reset]
    rfl
  · rw [exec_answerOf awaited, answered_working working, deliver_of_left (s := s.retire t.id) kind left]
    rfl

/-! ### Failed messages (R131) -/

theorem messageFailed_of_kept {s : State} {n : Fin 8} (kept : s.leftWrite n = false)
    (unreset : (s.cr n).resetWrite = false) (a : Nat) :
    messageFailed s n a = reportFault (messageWritten s n) .msgWrite (n.castLE (by decide)) a := by
  simp [messageFailed, messageWritten, kept, unreset]

/-- Settles O36: the failed message is the acknowledged one with its report. -/
theorem messageFailureIsReported : Obligations.MessageFailureIsReported := by
  intro s t n awaited kind working kept unreset
  refine ⟨messageWritten (s.retire t.id) n, n.castLE (by decide), rfl,
    exec_messageWriteAck_of_awaits awaited kind working, ?_⟩
  rw [exec_messageWriteError awaited kind, answered_working working,
    messageFailed_of_kept (s := s.retire t.id) kept unreset]

/-! ### The fault capture (R167 to R170) -/

theorem reportFault_first {s : State} (clear : s.ctl.capture.valid = false) (k : FaultKind) (n : Fin 16) (a : Nat) :
    reportFault s k n a = { s with ctl := { s.ctl with
      capture := ⟨true, false, k, n, BitVec.ofNat 48 a⟩
      owed := if s.ctl.faultVector.enabled then min 255 (s.ctl.owed + 1) else s.ctl.owed } } := by
  simp only [reportFault, clear, Bool.false_eq_true, if_false]
  rfl

theorem reportFault_later {s : State} (held : s.ctl.capture.valid = true) (k : FaultKind) (n : Fin 16) (a : Nat) :
    reportFault s k n a = { s with ctl := { s.ctl with capture := { s.ctl.capture with more := true } } } := by
  simp only [reportFault, held, if_true]

theorem faultN_reportFault (s : State) (k : FaultKind) (n : Fin 16) (a : Nat) : (reportFault s k n a).faultN = false := by
  cases held : s.ctl.capture.valid
  · rw [reportFault_first held]
    rfl
  · rw [reportFault_later held]
    simp [State.faultN, held]

theorem exec_faultMessageIssue (s : State) : exec .faultMessageIssue s = .next (if s.faultMessageReady then
    { s with
      ctl := { s.ctl with faultWrite := true }
      port := { s.port with control := some (faultRequest s.ctl.faultVector) } } else s) := rfl

theorem faultMessageReady_iff (s : State) :
    s.faultMessageReady = true ↔ 0 < s.ctl.owed ∧ s.ctl.faultWrite = false ∧ decodes s := by
  simp only [State.faultMessageReady, decodes, Bool.and_eq_true, Bool.or_eq_true, decide_eq_true_eq,
    Bool.not_eq_true', and_assoc]

/-- Settles O37. -/
theorem faultsAreCapturedAndMessaged : Obligations.FaultsAreCapturedAndMessaged := by
  refine ⟨rfl, fun s => ⟨rfl, ?_, low_word _, high_word _⟩, fun s k n a =>
    ⟨fun clear => reportFault_first clear k n a, fun held => reportFault_later held k n a, faultN_reportFault s k n a,
      _, rfl, rfl, rfl⟩, fun s => ⟨fun owed free awake => ?_, fun not => ?_, fun t ok awaited kind working => ?_⟩⟩
  · show BitVec.ofNat 32 s.faultRegister = _
    rw [State.faultRegister, mul_bit]
    rfl
  · rw [exec_faultMessageIssue, if_pos ((faultMessageReady_iff s).mpr ⟨owed, free, awake⟩)]
    rfl
  · rw [exec_faultMessageIssue, if_neg]
    rw [faultMessageReady_iff]
    rcases not with none | flying | asleep
    · omega
    · simp [flying]
    · tauto
  · rw [exec_faultMessageAnswer awaited kind, answered_working working]
    rfl

end Sys2Proof.Machine
end

section
/-! PROOFS. The Ring Fetch Unit and the grant: the start of an admission (O11), a fetched transfer record (O13), a
failed fetch (O14), the SR0 fetch and its administrative row (O15), and one grant of the Memory Port (O16). -/

open Sys2Proof.Claims

namespace Sys2Proof.Machine

-- One proof after the other: many at once use up the memory limit.
set_option Elab.async false

/-! ### The start of an admission (R8, R9) -/

theorem Head.isEmpty_iff (h : Head) : h.isEmpty = true ↔ h = .empty := by
  cases h <;> simp [Head.isEmpty]

theorem eligible_iff (s : State) (n : Fin 16) :
    s.eligible n = true ↔ (s.sr n).state = .active ∧ (s.sr n).producer ≠ (s.sr n).consumer ∧
      (s.sr n).head = .empty ∧ (s.sr n).fetchInFlight = false ∧ (s.cr (s.sr n).bound).state = .active ∧
      apart (2 ^ (s.cr (s.sr n).bound).log2) (s.cr (s.sr n).bound).producer (s.cr (s.sr n).bound).consumer +
        (s.cr (s.sr n).bound).reserved < 2 ^ (s.cr (s.sr n).bound).log2 - 1 ∧
      s.works = true := by
  simp only [State.eligible, CplRing.hasFree, Bool.and_eq_true, decide_eq_true_eq, Head.isEmpty_iff,
    Bool.not_eq_true', and_assoc]
  exact Iff.rfl

/-- R9's turn: the first eligible ring of its completion ring after the last taker. -/
theorem takesNext_iff {s : State} {n : Fin 16} (eligible : s.eligible n = true) :
    s.takesNext n = true ↔ n = 0 ∨ ∀ x, x ≠ 0 → (s.sr x).bound = (s.sr n).bound → s.eligible x = true →
      searchDistance (s.cr (s.sr n).bound).lastTaker n ≤ searchDistance (s.cr (s.sr n).bound).lastTaker x := by
  simp only [State.takesNext, Bool.or_eq_true, decide_eq_true_eq, find?_rotate_transferSr, Bool.and_eq_true, eligible,
    and_true, and_imp]
  by_cases zero : n = 0 <;> simp [zero]

theorem exec_admissionBegin (s : State) (n : Fin 16) :
    exec (.admissionBegin n) s = .next (if s.eligible n && s.takesNext n then beginAdmission s n else s) := rfl

theorem presentFetch_of_turn {s : State} {n : Fin 16} (free : s.port.ringFetch = none)
    (turn : (rotate allSr s.fetchLast).find? (fun n => (s.sr n).fetchQueued) = some n) :
    presentFetch s = { s.setSr n { s.sr n with fetchQueued := false } with
      fetchLast := n
      port := { s.port with ringFetch := some (fetchRequest n (s.sr n)) } } := by
  simp only [presentFetch, free, turn]

/-- Settles O11. -/
theorem admissionBegins : Obligations.AdmissionBegins := by
  refine ⟨fun s n => ⟨eligible_iff s n, fun eligible turn => ?_, fun not => ?_⟩, fun s =>
    ⟨fun idle => ?_, fun n free queued least => ?_⟩⟩
  · rw [exec_admissionBegin, eligible, (takesNext_iff eligible).mpr turn]
    rfl
  · rw [exec_admissionBegin, if_neg]
    rw [Bool.and_eq_true]
    rintro ⟨eligible, turn⟩
    rcases not with barred | ⟨other, x, ring, bound, able, nearer⟩
    · exact Bool.false_ne_true (barred.symm.trans eligible)
    · have first := ((takesNext_iff eligible).mp turn).resolve_left other x ring bound able
      exact absurd nearer (Nat.not_lt.mpr first)
  · rcases idle with presented | unqueued
    · obtain ⟨q, hq⟩ := Option.ne_none_iff_exists'.mp presented
      simp only [presentFetch, hq]
    · have nobody : (rotate allSr s.fetchLast).find? (fun n => (s.sr n).fetchQueued) = none := by
        simp [List.find?_eq_none, unqueued]
      unfold presentFetch
      rw [nobody]
      split <;> rfl
  · rw [presentFetch_of_turn free (find?_rotate_allSr.mpr ⟨queued, least⟩)]
    rfl

/-! ### A fetched transfer record (R10, R23, R41, R42) -/

/-- The settlement at admission, with the three links of Table 2.9 in one expression. -/
theorem settlementOf_eq (r : Line) (l : ChainLink) :
    settlementOf r l = match l with
      | .broken => .settled .skipped 0
      | link => match validate r (link = .linked) with
        | .execute op => .execute op
        | .invalid why => .settled .invalid (BitVec.ofNat 32 why.code) := by
  cases l <;> rfl

/-- A fetched record in its head slot: one ring changes, and a command to execute with a budget is watched. -/
theorem placeTransfer_eq (s : State) (n : Fin 16) (r : Line) :
    placeTransfer s n r = { s.setSr n { s.sr n with
        head := .transfer (headOf r (s.sr n).link s.time.tick)
        consumer := ((s.sr n).consumer + 1) % 2 ^ (s.sr n).log2
        fetchInFlight := false
        link := linkAfter (settlementOf r (s.sr n).link) (decodeFlags r).chain } with
      time := { s.time with watch := s.time.watch ++
        if (settlementOf r (s.sr n).link).toExecute && fieldAt r 8 3 ≠ 0 then
          [⟨n, .head, s.time.tick, fieldAt r 8 3, s.time.tick + BitVec.ofNat 32 (fieldAt r 8 3)⟩]
        else [] } } := by
  have budget : (headOf r (s.sr n).link s.time.tick).fields.budget = fieldAt r 8 3 := rfl
  have settled : (headOf r (s.sr n).link s.time.tick).settlement = settlementOf r (s.sr n).link := rfl
  simp only [placeTransfer, State.watchHead, budget, settled]
  cases (settlementOf r (s.sr n).link).toExecute
  · simp only [Bool.false_and, Bool.false_eq_true, if_false, List.append_nil]
    rfl
  · by_cases none : fieldAt r 8 3 = 0
    · simp only [none, ne_eq, not_true, decide_false, Bool.and_false, Bool.false_eq_true, if_false, if_true,
        List.append_nil]
      rfl
    · simp only [none, ne_eq, not_false_eq_true, decide_true, Bool.and_true, if_true, if_false]
      rfl

theorem fetched_transfer {n : Fin 16} (other : n ≠ 0) (r : Line) (s : State) :
    fetched n r s = decisionA (closeAbort (applyPending (drainHead (placeTransfer s n r) n) n)) := if_neg other

/-- Settles O13. -/
theorem transferRecordAdmitted : Obligations.TransferRecordAdmitted := by
  intro s t n r awaited kind other working
  refine ⟨placeTransfer (s.retire t.id) n r, settlementOf r (s.sr n).link, ?_, settlementOf_eq r _, ?_⟩
  · rw [exec_recordFetchSuccess awaited kind, answered_working working, fetched_transfer other]
  · rw [placeTransfer_eq]
    exact ⟨State.sr_setSr_self (s.retire t.id) n _, fun m ne => State.sr_setSr_ne (s.retire t.id) n m _ ne, rfl,
      ⟨rfl, rfl, rfl, rfl, rfl, rfl, rfl⟩, rfl, rfl, rfl⟩

/-! ### A failed fetch (R7, R11, R147) -/

/-- The state in which a fetch has failed, before the report. -/
def fetchFailed (s : State) (n : Fin 16) : State :=
  { (s.setCr (s.sr n).bound { s.cr (s.sr n).bound with reserved := (s.cr (s.sr n).bound).reserved - 1 }).setSr n
      { s.sr n with fetchInFlight := false, state := (s.sr n).state.afterFetchError } with
    admin := s.admin.afterFetchError n }

theorem failFetch_eq (s : State) (n : Fin 16) :
    failFetch s n = if n = 0 then halt (reportFault (fetchFailed s n) .adminFetch 0 (s.sr n).fetchAddress)
      else decisionA (closeAbort (reportFault (fetchFailed s n) .srFetch n (s.sr n).fetchAddress)) := rfl

theorem SrState.afterFetchError_eq (st : SrState) :
    st.afterFetchError = if st = .aborting then .aborting else .faulted := by
  cases st <;> rfl

/-- Settles O14. -/
theorem fetchFailureOutcomes : Obligations.FetchFailureOutcomes := by
  intro s t n awaited kind working
  refine ⟨fetchFailed (s.retire t.id) n, fun other => ?_, fun zero => ?_, ?_, ?_, ⟨fun m ne => ?_, fun j ne => ?_⟩,
    ⟨rfl, rfl, rfl, rfl, rfl, rfl, rfl⟩, rfl, ?_, rfl⟩
  · rw [exec_recordFetchError awaited kind, answered_working working, failFetch_eq, if_neg other]
    rfl
  · rw [exec_recordFetchError awaited kind, answered_working working, failFetch_eq, if_pos zero, halt_eq]
    rfl
  · rw [← SrState.afterFetchError_eq]
    exact State.sr_setSr_self _ n _
  · exact State.cr_setCr_self (s.retire t.id) (s.sr n).bound _
  · exact State.sr_setSr_ne _ n m _ ne
  · exact State.cr_setCr_ne (s.retire t.id) (s.sr n).bound j _ ne
  · show s.admin.afterFetchError n = _
    cases s.admin <;> rfl

/-! ### The administrative rows (R137 to R139) -/

/-- Every administrative row runs the command that its record names (R138). -/
theorem exec_administrative {s : State} {r : Line} {i : Instr}
    (h : i ∈ [Instr.adminUnknown r, .createCr r, .deleteCr r, .createSr r, .deleteSr r, .setLevel r, .pauseSr r,
      .resumeSr r, .abortSr r, .resetSr r, .resetCr r, .setWindow r, .clearWindow r, .setTrigger r, .setEngine r,
      .query r, .identify r]) :
    exec i s = .next (adminArrives r (runAdmin (recordAdminOp r) r) s) := by
  simp only [List.mem_cons, List.not_mem_nil, or_false] at h
  rcases h with rfl | rfl | rfl | rfl | rfl | rfl | rfl | rfl | rfl | rfl | rfl | rfl | rfl | rfl | rfl | rfl | rfl
  · exact adminRow_eq none r s
  · exact adminRow_eq (some .createCr) r s
  · exact adminRow_eq (some .deleteCr) r s
  · exact adminRow_eq (some .createSr) r s
  · exact adminRow_eq (some .deleteSr) r s
  · exact adminRow_eq (some .setLevel) r s
  · exact adminRow_eq (some .pauseSr) r s
  · exact adminRow_eq (some .resumeSr) r s
  · exact adminRow_eq (some .abortSr) r s
  · exact adminRow_eq (some .resetSr) r s
  · exact adminRow_eq (some .resetCr) r s
  · exact adminRow_eq (some .setWindow) r s
  · exact adminRow_eq (some .clearWindow) r s
  · exact adminRow_eq (some .setTrigger) r s
  · exact adminRow_eq (some .setEngine) r s
  · exact adminRow_eq (some .query) r s
  · exact adminRow_eq (some .identify) r s

theorem exec_adminCommand (s : State) (r : Line) :
    exec (adminCommand r) s = .next (adminArrives r (runAdmin (recordAdminOp r) r) s) := by
  refine exec_administrative ?_
  unfold adminCommand
  split <;> simp

theorem fetched_zero (r : Line) (s : State) :
    fetched 0 r s = adminFetched r (runAdmin (recordAdminOp r) r) s := rfl

theorem kind_of_adminFetch {s : State} {t : Transaction} (h : s.port.adminFetch = some t) :
    t.request.kind = .recordFetch 0 := by
  simpa using List.find?_some h

/-- In HALTED the record is placed and not taken (R139). -/
theorem adminFetched_halted {s : State} (halted : s.ctl.engine = .halted) (r : Line) (run : State → State) :
    adminFetched r run s = placeAdmin s r := by
  have idle : (placeAdmin s r).works = false := by
    show s.works = false
    simp [State.works, halted]
  simp [adminFetched, idle]

/-- Settles O15. -/
theorem adminRowIsItsFetch : Obligations.AdminRowIsItsFetch := by
  refine ⟨fun s t r awaited fetch => ?_, fun s t r awaited kind halted => ?_, fun s r i h => ?_⟩
  · rw [exec_adminCommand, adminArrives, fetch, exec_recordFetchSuccess awaited (kind_of_adminFetch fetch),
      State.answered, fetched_zero]
  · rw [exec_recordFetchSuccess awaited kind, answered_working (by simp [halted]), fetched_zero,
      adminFetched_halted (s := s.retire t.id) halted]
    rfl
  · rw [exec_administrative h, exec_adminCommand]

/-! ### A grant (R84, R86) -/

theorem after_ascends (q : Requester) : q.after.Pairwise (fun a b =>
    tableDistance 5 (requesterPlace q) (requesterPlace a) < tableDistance 5 (requesterPlace q) (requesterPlace b)) := by
  cases q <;> decide

theorem mem_after (p q : Requester) : q ∈ p.after := by
  cases p <;> cases q <;> decide

theorem next_iff (p : Port) (q : Requester) :
    p.next = some q ↔ (p.presented q).isSome = true ∧ ∀ x, (p.presented x).isSome = true →
      tableDistance 5 (requesterPlace p.pointer) (requesterPlace q) ≤
        tableDistance 5 (requesterPlace p.pointer) (requesterPlace x) := by
  simp only [Port.next, find?_eq_some_iff_least (after_ascends p.pointer), mem_after, true_and, forall_const]

/-- The requester at the pointer is the last in the rotation. -/
theorem distance_pointer {p q : Requester} (other : q ≠ p) :
    tableDistance 5 (requesterPlace p) (requesterPlace q) < tableDistance 5 (requesterPlace p) (requesterPlace p) := by
  revert other
  cases p <;> cases q <;> decide

theorem next_eq_none {p : Port} (h : ∀ q, p.presented q = none) : p.next = none := by
  simp [Port.next, List.find?_eq_none, h]

theorem grantedLane_eq (l : Lane) (k : TransactionKind) : l.granted k = grantedLane l k := rfl

theorem take_eq (p : Port) (q : Requester) :
    p.take q = { p with
      ringFetch := if q = .ringFetch then none else p.ringFetch
      lane := if q = .lane then none else p.lane
      completion := if q = .completion then none else p.completion
      admin := if q = .admin then none else p.admin
      control := if q = .control then none else p.control } := by
  cases q <;> rfl

theorem issue_eq (s : State) (q : Requester) (req : Request) (id : Fin 32) :
    issue s q req id = { s with
      lane := grantedLane s.lane req.kind
      port := { s.port with
        outstanding := s.port.outstanding ++ [⟨id, s.time.tick, req⟩]
        pointer := q
        ringFetch := if q = .ringFetch then none else s.port.ringFetch
        lane := if q = .lane then none else s.port.lane
        completion := if q = .completion then none else s.port.completion
        admin := if q = .admin then none else s.port.admin
        control := if q = .control then none else s.port.control } } := by
  rw [issue, take_eq, grantedLane_eq]

theorem exec_memoryGrant (s : State) (id : Fin 32) : exec (.memoryGrant id) s = .next (grant s id) := rfl

theorem grant_of_next {s : State} {id : Fin 32} {q : Requester} {req : Request} (can : s.canGrant id = true)
    (next : s.port.next = some q) (presented : s.port.presented q = some req) :
    grant s id = presentNext (issue s q req id) q := by
  simp only [grant, can, if_true, next, presented]

theorem unheld_iff (p : Port) (id : Fin 32) :
    id ∉ p.outstandingIds ++ p.abandoned ↔ (∀ t ∈ p.outstanding, t.id ≠ id) ∧ id ∉ p.abandoned := by
  simp only [List.mem_append, not_or, Port.outstandingIds, List.mem_map, not_exists, not_and]

/-- Settles O16. -/
theorem grantIssuesOneRequest : Obligations.GrantIssuesOneRequest := by
  refine ⟨fun p q presented other again => ?_, fun p => rfl, fun s id =>
    ⟨fun q req room fresh unabandoned working presented first => ?_, fun not => ?_⟩⟩
  · exact absurd (((next_iff p _).mp again).2 q presented) (Nat.not_le.mpr (distance_pointer other))
  · have can := (canGrant_iff s id).mpr ⟨room, (unheld_iff _ _).mpr ⟨fresh, unabandoned⟩, working⟩
    have next : s.port.next = some q := (next_iff _ _).mpr ⟨by rw [presented]; rfl, first⟩
    refine ⟨issue s q req id, issue_eq s q req id, ?_⟩
    rw [exec_memoryGrant, grant_of_next can next presented]
    cases q <;> rfl
  · rw [exec_memoryGrant]
    by_cases can : s.canGrant id = true
    · obtain ⟨room, free, working⟩ := (canGrant_iff s id).mp can
      obtain ⟨fresh, unabandoned⟩ := (unheld_iff _ _).mp free
      rcases not with full | ⟨t, mem, same⟩ | abandoned | resetting | silent
      · omega
      · exact absurd same (fresh t mem)
      · exact absurd abandoned unabandoned
      · exact absurd resetting working
      · simp only [grant, can, if_true, next_eq_none silent]
    · rw [grant, if_neg can]

end Sys2Proof.Machine
end

section
/-! PROOFS. The Dispatcher: the completion of a dispatched command (O21), the best candidate (O24), and what follows
a completion (O27). -/

open Sys2Proof.Claims

namespace Sys2Proof.Machine

-- One proof after the other: many at once use up the memory limit.
set_option Elab.async false

/-! ### The completion of a dispatched command (R15, R62, R122) -/

theorem CplRing.produced_eq (c : CplRing) (rec : CplRecord) :
    c.produced rec = if c.state = .faulted then
        { c with reserved := c.reserved - 1, discarded := min 0xFFFFFFFF (c.discarded + 1) }
      else { c with outbound := c.outbound ++ [rec] } := rfl

/-- A command that left the lane or the stack is watched no longer (R104). -/
theorem unwatch_dispatched (s : State) (n : Fin 16) :
    ((s.unwatch n .active).unwatch n .suspended).time =
      { s.time with watch := s.time.watch.filter (fun e => e.ring ≠ n || e.place = .head) } := by
  have kept (e : WatchEntry) : (!(decide (e.ring = n) && decide (e.place = .suspended)) &&
      !(decide (e.ring = n) && decide (e.place = .active))) = (decide (e.ring ≠ n) || decide (e.place = .head)) := by
    by_cases ring : e.ring = n <;> cases e.place <;> simp [ring]
  simp only [State.unwatch, List.filter_filter, funext kept]

/-- The state in which a dispatched command's completion is produced, its marker clear (steps 1 and 2 of R62). -/
def dispatchedEnded (s : State) (c : Context) (st : Status) (v : Word32) : State :=
  (((produce s (s.sr c.ring).bound (contextRecord (s.sr c.ring) c st v)).unwatch c.ring .active).unwatch c.ring
    .suspended).setSr c.ring { s.sr c.ring with dispatched := false }

theorem endDispatched_eq (s : State) (c : Context) (st : Status) (v : Word32) :
    endDispatched s c st v =
      applyPending (drainHead (chainAfter (dispatchedEnded s c st v) c st v) c.ring) c.ring := rfl

theorem dispatchedEnded_eq (s : State) (c : Context) (st : Status) (v : Word32) :
    dispatchedEnded s c st v = { (s.setCr (s.sr c.ring).bound
        ((s.cr (s.sr c.ring).bound).produced (contextRecord (s.sr c.ring) c st v))).setSr c.ring
          { s.sr c.ring with dispatched := false } with
      time := { s.time with watch := s.time.watch.filter (fun e => e.ring ≠ c.ring || e.place = .head) } } := by
  rw [← unwatch_dispatched, dispatchedEnded, produce_eq]
  rfl

theorem lateFlag_iff (c : Context) (st : Status) :
    c.lateFlag st = true ↔ st ≠ .deadlineMissed ∧
      (c.late = true ∨ (c.request = some .deadlineMissed ∧ st ≠ .aborted)) := by
  simp only [Context.lateFlag, Bool.and_eq_true, Bool.or_eq_true, decide_eq_true_eq]

theorem chainOpenFlag_iff (r : SubRing) (c : Context) (st : Status) :
    chainOpenFlag r c st = true ↔
      st = .success ∧ c.fields.flags.chain = true ∧ r.head = .empty ∧ r.producer = r.consumer := by
  simp only [chainOpenFlag, Bool.and_eq_true, decide_eq_true_eq, Head.isEmpty_iff, and_assoc]

/-- Settles O21. -/
theorem endedCommandIsReported : Obligations.EndedCommandIsReported := by
  intro s c st v
  refine ⟨contextRecord (s.sr c.ring) c st v, dispatchedEnded s c st v, endDispatched_eq s c st v, ?_⟩
  rw [dispatchedEnded_eq]
  refine ⟨?_, State.sr_setSr_self _ c.ring _, ⟨fun m ne => State.sr_setSr_ne _ c.ring m _ ne, fun j ne => ?_⟩,
    ⟨rfl, rfl, rfl, rfl, rfl, rfl, rfl⟩, rfl, rfl, rfl, rfl, rfl, rfl, rfl, rfl, rfl, rfl, rfl, rfl, lateFlag_iff c st,
    chainOpenFlag_iff _ c st⟩
  · rw [← CplRing.produced_eq]
    exact State.cr_setCr_self s (s.sr c.ring).bound _
  · exact State.cr_setCr_ne s (s.sr c.ring).bound j _ ne

/-! ### Candidates (R49, R50) -/

theorem ChainCarry.isOpen_iff (c : ChainCarry) : c.isOpen = true ↔ c ≠ .closed := by
  cases c <;> simp [ChainCarry.isOpen]

theorem excluded_eq_false_iff (s : State) (n : Fin 16) :
    s.excluded n = false ↔
      ∀ x, x ≠ 0 → x ≠ n → (s.sr x).carry ≠ .closed → (s.sr x).level ≠ (s.sr n).level := by
  simp only [State.excluded, List.any_eq_false, mem_transferSr, Bool.and_eq_true, decide_eq_true_eq,
    ChainCarry.isOpen_iff, not_and, and_imp]

theorem triggerReady_iff (s : State) (f : Fields) :
    s.triggerReady f = true ↔ (f.flags.trigWait = true → 0 < (s.trig f.line).credits) := by
  simp only [State.triggerReady, Bool.or_eq_true, Bool.not_eq_true', decide_eq_true_eq]
  cases f.flags.trigWait <;> simp

theorem dispatchable_iff (s : State) (n : Fin 16) :
    s.dispatchable n = true ↔ n ≠ 0 ∧ s.ctl.engine = .running ∧ (s.sr n).state = .active ∧
      (s.sr n).dispatched = false ∧ (s.cr (s.sr n).bound).state = .active ∧
      ∃ h op, (s.sr n).head = .transfer h ∧ h.settlement = .execute op ∧
        (h.fields.flags.trigWait = true → 0 < (s.trig h.fields.line).credits) := by
  simp only [State.dispatchable, Bool.and_eq_true, decide_eq_true_eq, Bool.not_eq_true']
  have ready : (match (s.sr n).head with
      | .transfer h => match h.settlement with
        | .execute _ => s.triggerReady h.fields
        | .settled _ _ => false
      | _ => false) = true ↔ ∃ h op, (s.sr n).head = .transfer h ∧ h.settlement = .execute op ∧
        (h.fields.flags.trigWait = true → 0 < (s.trig h.fields.line).credits) := by
    cases (s.sr n).head with
    | transfer h =>
      cases settled : h.settlement with
      | execute op => simp [triggerReady_iff, settled]
      | settled st v => simp [settled]
    | _ => simp
  constructor
  · rintro ⟨⟨⟨⟨⟨other, active⟩, clear⟩, bound⟩, running⟩, head⟩
    exact ⟨other, running, active, clear, bound, ready.mp head⟩
  · rintro ⟨other, running, active, clear, bound, head⟩
    exact ⟨⟨⟨⟨⟨other, active⟩, clear⟩, bound⟩, running⟩, ready.mpr head⟩

theorem candidate_iff (s : State) (n : Fin 16) :
    s.candidate n = true ↔ n ≠ 0 ∧ s.ctl.engine = .running ∧ (s.sr n).state = .active ∧
      (s.sr n).dispatched = false ∧ (s.cr (s.sr n).bound).state = .active ∧
      (∃ h op, (s.sr n).head = .transfer h ∧ h.settlement = .execute op ∧
        (h.fields.flags.trigWait = true → 0 < (s.trig h.fields.line).credits)) ∧
      ∀ x, x ≠ 0 → x ≠ n → (s.sr x).carry ≠ .closed → (s.sr x).level ≠ (s.sr n).level := by
  simp only [State.candidate, Bool.and_eq_true, Bool.not_eq_true', dispatchable_iff, excluded_eq_false_iff, and_assoc]

theorem ne_zero_of_candidate {s : State} {n : Fin 16} (h : s.candidate n = true) : n ≠ 0 :=
  ((candidate_iff s n).mp h).1

theorem candidateAt_iff (s : State) (p : Fin 8) (n : Fin 16) :
    s.candidateAt p n = true ↔ s.candidate n = true ∧ (s.sr n).level = p := by
  simp only [State.candidateAt, Bool.and_eq_true, decide_eq_true_eq]

/-! ### The best of a level, and of all (R51, R52) -/

theorem bestAt_spec {s : State} {p : Fin 8} {n : Fin 16} (h : s.bestAt p = some n) :
    s.candidateAt p n = true ∧ ((s.sr n).carry = .closed →
      ∀ m, s.candidateAt p m = true →
        (s.sr m).carry = .closed ∧ searchDistance (s.pointer p) n ≤ searchDistance (s.pointer p) m) := by
  unfold State.bestAt at h
  split at h
  · next x found =>
    cases h
    have both := List.find?_some found
    simp only [Bool.and_eq_true, ChainCarry.isOpen_iff] at both
    exact ⟨both.1, fun closed => absurd closed both.2⟩
  · next found =>
    obtain ⟨⟨other, at_⟩, least⟩ := find?_rotate_transferSr.mp h
    refine ⟨at_, fun _ m mat => ?_⟩
    have ring := ne_zero_of_candidate ((candidateAt_iff s p m).mp mat).1
    have closed := List.find?_eq_none.mp found m ((mem_transferSr m).mpr ring)
    simp only [mat, Bool.true_and, ChainCarry.isOpen_iff, ne_eq, Decidable.not_not] at closed
    exact ⟨closed, least m ring mat⟩

theorem bestAt_isSome {s : State} {p : Fin 8} {n : Fin 16} (h : s.candidateAt p n = true) :
    (s.bestAt p).isSome = true := by
  unfold State.bestAt
  split
  · rfl
  · rw [List.find?_isSome]
    exact ⟨n, mem_rotate.mpr ((mem_transferSr n).mpr (ne_zero_of_candidate ((candidateAt_iff s p n).mp h).1)), h⟩

theorem any_candidateAt_iff (s : State) (p : Fin 8) :
    transferSr.any (s.candidateAt p) = true ↔ ∃ n, s.candidateAt p n = true := by
  simp only [List.any_eq_true, mem_transferSr]
  exact exists_congr fun n =>
    and_iff_right_of_imp fun h => ne_zero_of_candidate ((candidateAt_iff s p n).mp h).1

theorem best_eq_none_iff (s : State) : s.best = none ↔ ∀ n, s.candidate n = false := by
  unfold State.best
  split
  · next p found =>
    obtain ⟨n, at_⟩ := (any_candidateAt_iff s p).mp (List.find?_some (p := fun p => transferSr.any (s.candidateAt p)) found)
    refine ⟨fun none => ?_, fun not => ?_⟩
    · have some := bestAt_isSome at_
      rw [none] at some
      cases some
    · exact absurd ((candidateAt_iff s p n).mp at_).1 (by simp [not n])
  · next found =>
    refine iff_of_true rfl fun n => ?_
    have level := find?_all8_eq_none_iff.mp found (s.sr n).level
    rw [any_candidateAt_iff] at level
    rw [← Bool.not_eq_true]
    exact fun candidate => level ⟨n, (candidateAt_iff s _ n).mpr ⟨candidate, rfl⟩⟩

theorem best_spec {s : State} {n : Fin 16} (h : s.best = some n) :
    s.bestAt (s.sr n).level = some n ∧ ∀ m, s.candidate m = true → (s.sr n).level ≤ (s.sr m).level := by
  unfold State.best at h
  split at h
  · next p found =>
    have level : (s.sr n).level = p := ((candidateAt_iff s p n).mp (bestAt_spec h).1).2
    obtain ⟨-, urgent⟩ := find?_all8_eq_some_iff.mp found
    rw [level]
    refine ⟨h, fun m candidate => not_lt.mp fun lower => urgent _ lower ?_⟩
    exact (any_candidateAt_iff s _).mpr ⟨m, (candidateAt_iff s _ m).mpr ⟨candidate, rfl⟩⟩
  · cases h

/-- Settles O24. An OPEN chain excludes every other ring of its level (R50), so it is the only candidate there. -/
theorem bestCandidateIsChosen : Obligations.BestCandidateIsChosen := by
  refine fun s => ⟨candidate_iff s, best_eq_none_iff s, fun n best => ?_⟩
  obtain ⟨at_, urgent⟩ := best_spec best
  obtain ⟨nAt, closedLeast⟩ := bestAt_spec at_
  refine ⟨((candidateAt_iff s _ n).mp nAt).1, urgent, fun m candidate same open_ => ?_, fun closed m candidate same => ?_⟩
  · have excludes : ∀ x, x ≠ 0 → x ≠ n → (s.sr x).carry ≠ .closed → (s.sr x).level ≠ (s.sr n).level :=
      ((candidate_iff s n).mp ((candidateAt_iff s _ n).mp nAt).1).2.2.2.2.2.2
    exact by_contra fun other => excludes m (ne_zero_of_candidate candidate) other open_ same
  · exact (closedLeast closed m ((candidateAt_iff s _ m).mpr ⟨candidate, same⟩)).2

/-! ### The chain rules (R43, R44) -/

theorem member_iff (c : Context) : c.member = true ↔ c.continuation = true ∨ c.fields.flags.chain = true := by
  simp only [Context.member, Bool.or_eq_true]

theorem chainAfter_success {s : State} {c : Context} (member : c.member = true) (v : Word32) :
    chainAfter s c .success v = s.setSr c.ring ((s.sr c.ring).afterSuccess c v) := by
  simp [chainAfter, member]

theorem chainAfter_failure {s : State} {c : Context} {st : Status} (member : c.member = true) (aborted : st ≠ .aborted)
    (success : st ≠ .success) (v : Word32) :
    chainAfter s c st v =
      if ((s.sr c.ring).afterFailure c).head = (s.sr c.ring).head then s.setSr c.ring ((s.sr c.ring).afterFailure c)
      else (s.setSr c.ring ((s.sr c.ring).afterFailure c)).unwatch c.ring .head := by
  simp [chainAfter, member, aborted, success]

theorem chainAfter_unchanged {s : State} {c : Context} {st : Status} (h : c.member = false ∨ st = .aborted)
    (v : Word32) : chainAfter s c st v = s := by
  rcases h with h | h <;> simp [chainAfter, h]

theorem SubRing.afterSuccess_eq (r : SubRing) (c : Context) (v : Word32) :
    r.afterSuccess c v = if c.fields.flags.chain = false then { r with carry := .closed }
      else if r.head = .empty ∧ r.producer = r.consumer then { r with carry := .closed, link := .unlinked }
      else { r with carry := .opened (if c.crc.isSome then some v else match r.carry with
        | .opened x => x
        | .closed => none) } := by
  simp only [SubRing.afterSuccess, Bool.and_eq_true, Head.isEmpty_iff, decide_eq_true_eq, Bool.not_eq_true']
  rfl

theorem Head.skipped_continuation {h : HeadCmd} {op : Opcode} (continuation : h.continuation = true)
    (execute : h.settlement = .execute op) :
    (Head.transfer h).skipped = .transfer { h with settlement := .settled .skipped 0 } := by
  simp only [Head.skipped, execute, continuation, if_true]

theorem Head.skipped_other {x : Head}
    (h : ∀ c op, x = .transfer c → c.continuation = true → c.settlement ≠ .execute op) : x.skipped = x := by
  cases x with
  | transfer c =>
    simp only [Head.skipped]
    split
    · next op execute =>
      rw [if_neg fun continuation => h c op rfl continuation execute]
    · rfl
  | _ => rfl

theorem SubRing.afterFailure_chain {c : Context} (chain : c.fields.flags.chain = true) (r : SubRing) :
    r.afterFailure c = { r with
      carry := .closed, head := r.head.skipped, link := if r.link = .linked then .broken else r.link } := by
  simp only [SubRing.afterFailure, chain, if_true]

theorem SubRing.afterFailure_last {c : Context} (chain : c.fields.flags.chain = false) (r : SubRing) :
    r.afterFailure c = { r with carry := .closed } := by
  simp only [SubRing.afterFailure, chain, Bool.false_eq_true, if_false]

/-! ### The drain of a settled head (R17, R45) -/

theorem HeadCmd.member_iff (h : HeadCmd) :
    h.member = true ↔ h.continuation = true ∨ h.fields.flags.chain = true := by
  simp only [HeadCmd.member, Bool.or_eq_true]

theorem headRecord_settled (n : Fin 16) (r : SubRing) (h : HeadCmd) {st : Status}
    (own : st ∈ [Status.invalid, .skipped, .deadlineMissed]) (v : Word32) :
    headRecord n r h st v = ⟨h.fields.tag, n, st, r.consumer, false, false, false, false, v, 0,
      h.fields.flags.noIntr && st = .deadlineMissed⟩ := by
  simp only [List.mem_cons, List.not_mem_nil, or_false] at own
  rcases own with rfl | rfl | rfl <;> simp [headRecord]

theorem drainHead_settled {s : State} {n : Fin 16} {h : HeadCmd} {st : Status} {v : Word32}
    (head : (s.sr n).head = .transfer h) (settled : h.settlement = .settled st v) :
    drainHead s n = if s.works = true ∧ (s.sr n).dispatched = false then
        (produce s (s.sr n).bound (headRecord n (s.sr n) h st v)).setSr n { s.sr n with
          head := .empty
          carry := if h.continuation = true ∨ h.fields.flags.chain = true then .closed else (s.sr n).carry }
      else s := by
  simp only [drainHead, head, settled, Bool.and_eq_true, Bool.not_eq_true', ← HeadCmd.member_iff]

theorem drainHead_unsettled {s : State} {n : Fin 16}
    (h : ∀ c st v, (s.sr n).head = .transfer c → c.settlement ≠ .settled st v) : drainHead s n = s := by
  unfold drainHead
  dsimp only
  split
  · next c head =>
    split
    · next st v settled => exact absurd settled (h c st v head)
    · rfl
  · rfl

/-! ### The pending level (R48) -/

/-- Of contexts of different rings, the one of a ring is found wherever it is held. -/
theorem contextOf_eq_some_iff {s : State} (rings : (s.disp.contexts.map (fun c => c.ring)).Nodup) {n : Fin 16}
    {c : Context} : s.contextOf n = some c ↔ c ∈ s.disp.contexts ∧ c.ring = n := by
  have searched : s.contextOf n = s.disp.contexts.find? (fun d => d.ring = n) := by
    unfold State.contextOf Dispatcher.contexts
    cases s.disp.active with
    | none => rfl
    | some a => by_cases own : a.ring = n <;> simp [own]
  rw [searched]
  refine ⟨fun found => ⟨List.mem_of_find?_eq_some found, by simpa using List.find?_some found⟩, fun ⟨mem, ring⟩ => ?_⟩
  cases found : s.disp.contexts.find? (fun d => d.ring = n) with
  | none => exact absurd ring (by simpa using List.find?_eq_none.mp found c mem)
  | some d =>
    have dring : d.ring = n := by simpa using List.find?_some found
    rw [List.inj_on_of_nodup_map rings (List.mem_of_find?_eq_some found) mem (dring.trans ring.symm)]

theorem chainInProgress_iff {s : State} (rings : (s.disp.contexts.map (fun c => c.ring)).Nodup) (n : Fin 16) :
    s.chainInProgress n = true ↔ (s.sr n).carry ≠ .closed ∨
      ∃ c ∈ s.disp.contexts, c.ring = n ∧ c.continuation = false ∧ c.fields.flags.chain = true := by
  simp only [State.chainInProgress, Bool.or_eq_true, ChainCarry.isOpen_iff]
  refine or_congr_right ?_
  constructor
  · split
    · next c held =>
      intro first
      simp only [Bool.and_eq_true, Bool.not_eq_true'] at first
      obtain ⟨mem, ring⟩ := (contextOf_eq_some_iff rings).mp held
      exact ⟨c, mem, ring, first.1, first.2⟩
    · exact fun h => absurd h Bool.false_ne_true
  · rintro ⟨c, mem, ring, first, chain⟩
    rw [(contextOf_eq_some_iff rings).mpr ⟨mem, ring⟩]
    simp [first, chain]

theorem applyPending_stays {s : State} {n : Fin 16} (h : (s.sr n).pendingLevel = none ∨ s.chainInProgress n = true) :
    applyPending s n = s := by
  unfold applyPending
  split
  · next l pending => rw [if_pos (h.resolve_left (by simp [pending]))]
  · rfl

theorem applyPending_applies {s : State} {n : Fin 16} {l : Fin 8} (pending : (s.sr n).pendingLevel = some l)
    (free : s.chainInProgress n = false) :
    applyPending s n = s.setSr n { s.sr n with level := l, pendingLevel := none } := by
  simp [applyPending, pending, free]

/-- Settles O27. -/
theorem chainRulesAndDrain : Obligations.ChainRulesAndDrain := by
  refine ⟨fun s c st v r ring => ⟨fun alone => ?_, fun member => ⟨fun success => ?_, fun failed => ?_⟩⟩,
    fun s n h st v head settled own => ⟨fun works clear => ?_, fun waits => ?_⟩,
    fun s n h => drainHead_unsettled h,
    fun s n => ⟨fun rings => chainInProgress_iff rings n, applyPending_stays, fun l => applyPending_applies⟩⟩
  · refine chainAfter_unchanged (alone.imp_left fun ⟨first, last⟩ => ?_) v
    simp [Context.member, first, last]
  · rw [success, chainAfter_success ((member_iff c).mpr member), ring]
    exact congrArg (s.setSr c.ring) (r.afterSuccess_eq c v)
  · have unaborted : st ≠ .aborted := by rintro rfl; simp at failed
    have unsuccessful : st ≠ .success := by rintro rfl; simp at failed
    rw [chainAfter_failure ((member_iff c).mpr member) unaborted unsuccessful, ring]
    refine ⟨fun last => ?_, fun chain l link => ⟨fun h op head continuation execute => ?_, fun other => ?_⟩⟩
    · rw [SubRing.afterFailure_last last, if_pos rfl]
    · rw [SubRing.afterFailure_chain chain, head, Head.skipped_continuation continuation execute, ← link, if_neg]
      intro same
      injection same with same
      rw [← same] at execute
      cases execute
    · rw [SubRing.afterFailure_chain chain, Head.skipped_other other, ← link, if_pos rfl]
  · rw [drainHead_settled head settled, if_pos ⟨works, clear⟩, headRecord_settled n _ h own]
  · rw [drainHead_settled head settled, if_neg]
    rcases waits with idle | busy
    · simp [idle]
    · simp [busy]

end Sys2Proof.Machine
end

section
/-! PROOFS. The decisions of the Dispatcher (O26), with the bound on the MARKs of one event, and the expiries of
watched commands (O39). -/

open Sys2Proof.Claims

namespace Sys2Proof.Machine

-- One proof after the other: many at once use up the memory limit.
set_option Elab.async false

/-! ### Heads to execute

A dispatch takes one head to execute, and nothing that the end of a MARK brings about makes another: so the fifteen
transfer rings bound the MARKs of one event. -/

/-- The head slot holds a command to execute. -/
def Head.runs : Head → Bool
  | .transfer h => h.settlement.toExecute
  | _ => false

/-- Every head to execute of `t` is one of `s`. -/
def Runs (s t : State) : Prop := ∀ n, (t.sr n).head.runs = true → (s.sr n).head.runs = true

theorem Runs.trans {a b c : State} (h : Runs a b) (k : Runs b c) : Runs a c := fun n run => h n (k n run)

theorem Runs.same {s t : State} (h : t.srs = s.srs) : Runs s t := fun n run => by
  rwa [State.sr, h] at run

theorem Runs.refl (s : State) : Runs s s := .same rfl

theorem runs_setSr {s : State} {n : Fin 16} {r : SubRing} (h : r.head.runs = true → (s.sr n).head.runs = true) :
    Runs s (s.setSr n r) := fun m run => by
  by_cases here : m = n
  · subst here
    rw [State.sr_setSr_self] at run
    exact h run
  · rwa [State.sr_setSr_ne s n m r here] at run

theorem runs_produce (s : State) (k : Fin 8) (rec : CplRecord) : Runs s (produce s k rec) := by
  rw [produce_eq]
  exact .same rfl

theorem Head.runs_of_skipped (h : Head) (run : h.skipped.runs = true) : h.runs = true := by
  cases h with
  | transfer c =>
    cases settled : c.settlement with
    | execute op => simp [Head.runs, settled, Settlement.toExecute]
    | settled st v => simp [Head.skipped, Head.runs, settled, Settlement.toExecute] at run
  | _ => exact run

theorem SubRing.afterSuccess_head (r : SubRing) (c : Context) (v : Word32) : (r.afterSuccess c v).head = r.head := by
  simp only [SubRing.afterSuccess, apply_ite SubRing.head, ite_self]

theorem runs_chainAfter (s : State) (c : Context) (st : Status) (v : Word32) : Runs s (chainAfter s c st v) := by
  have failed : Runs s (s.setSr c.ring ((s.sr c.ring).afterFailure c)) := by
    refine runs_setSr fun run => ?_
    cases chain : c.fields.flags.chain
    · rwa [SubRing.afterFailure_last chain] at run
    · rw [SubRing.afterFailure_chain chain] at run
      exact Head.runs_of_skipped _ run
  unfold chainAfter
  split
  · exact .refl s
  · split
    · exact runs_setSr fun run => by rwa [SubRing.afterSuccess_head] at run
    · dsimp only
      split
      · exact failed
      · exact failed.trans (.same rfl)

theorem runs_drainHead (s : State) (n : Fin 16) : Runs s (drainHead s n) := by
  unfold drainHead
  dsimp only
  split
  · split
    · split
      · exact (runs_produce s _ _).trans (runs_setSr fun run => Bool.noConfusion run)
      · exact .refl s
    · exact .refl s
  · exact .refl s

theorem runs_applyPending (s : State) (n : Fin 16) : Runs s (applyPending s n) := by
  unfold applyPending
  split
  · split
    · exact .refl s
    · exact runs_setSr id
  · exact .refl s

theorem runs_endDispatched (s : State) (c : Context) (st : Status) (v : Word32) : Runs s (endDispatched s c st v) := by
  have ended : Runs s (dispatchedEnded s c st v) := by
    rw [dispatchedEnded_eq]
    have ring : Runs s (s.setSr c.ring { s.sr c.ring with dispatched := false }) := runs_setSr id
    exact ring.trans (.same rfl)
  rw [endDispatched_eq]
  exact ((ended.trans (runs_chainAfter _ c st v)).trans (runs_drainHead _ _)).trans (runs_applyPending _ _)

theorem runs_finishAdmin (s : State) (st : Status) (v : Nat) : Runs s (finishAdmin s st v) := by
  rw [finishAdmin_eq]
  have produced : Runs s (produce { s with admin := .idle } 0 (adminRecord s st v)) :=
    Runs.trans (b := { s with admin := .idle }) (.same rfl) (runs_produce _ _ _)
  exact produced.trans (runs_setSr fun run => Bool.noConfusion run)

theorem runs_abortHead (s : State) (n : Fin 16) : Runs s (abortHead s n) := by
  unfold abortHead
  dsimp only
  split
  · split
    · refine Runs.trans ?_ (runs_setSr fun run => Bool.noConfusion run)
      exact (runs_produce s _ _).trans (.same rfl)
    · exact runs_drainHead s n
  · exact .refl s

theorem runs_abortRing (s : State) (n : Fin 16) (e : Bool) : Runs s (abortRing s n e) := by
  have closed : Runs s (s.setSr n { s.sr n with consumer := (s.sr n).producer, link := .unlinked, carry := .closed }) :=
    runs_setSr id
  exact (closed.trans (runs_applyPending _ n)).trans (runs_setSr id)

theorem runs_abortClose (s : State) : Runs s (abortClose s) := by
  unfold abortClose
  split
  · split
    · exact ((runs_abortHead s _).trans (runs_abortRing _ _ _)).trans (.same rfl)
    · exact .refl s
  · exact .refl s

theorem runs_abortFinish (s : State) : Runs s (abortFinish s) := by
  unfold abortFinish
  split
  · split
    · exact runs_finishAdmin _ _ _
    · exact .refl s
  · exact .refl s

theorem runs_closeAbort (s : State) : Runs s (closeAbort s) := (runs_abortClose s).trans (runs_abortFinish _)

theorem runs_endActive (s : State) (c : Context) (st : Status) (v : Word32) : Runs s (endActive s c st v) := by
  have left : Runs s { s with disp := { s.disp with active := none }, lane := .cleared } := .same rfl
  exact (left.trans (runs_endDispatched _ c st v)).trans (runs_closeAbort _)

/-- The transfer rings with a head to execute. -/
def runSet (s : State) : Finset (Fin 16) := Finset.univ.filter (fun n => n ≠ 0 ∧ (s.sr n).head.runs = true)

theorem mem_runSet (s : State) (n : Fin 16) : n ∈ runSet s ↔ n ≠ 0 ∧ (s.sr n).head.runs = true := by
  simp [runSet]

theorem runSet_subset {s t : State} (h : Runs s t) : runSet t ⊆ runSet s := fun n mem => by
  rw [mem_runSet] at mem ⊢
  exact ⟨mem.1, h n mem.2⟩

theorem card_runSet_lt (s : State) : (runSet s).card < 16 := by
  have : (runSet s).card < (Finset.univ : Finset (Fin 16)).card := by
    refine Finset.card_lt_card ⟨Finset.subset_univ _, fun all => ?_⟩
    exact ((mem_runSet s 0).mp (all (Finset.mem_univ 0))).1 rfl
  simpa using this

/-- The head of the best candidate. -/
theorem head_of_best {s : State} {n : Fin 16} (h : s.best = some n) :
    n ≠ 0 ∧ ∃ c op, (s.sr n).head = .transfer c ∧ c.settlement = .execute op := by
  obtain ⟨other, -, -, -, -, ⟨c, op, head, execute, -⟩, -⟩ := (candidate_iff s n).mp (candidate_of_best h)
  exact ⟨other, c, op, head, execute⟩

theorem srs_dispatch {s : State} {n : Fin 16} {h : HeadCmd} {op : Opcode} (head : (s.sr n).head = .transfer h)
    (execute : h.settlement = .execute op) :
    (dispatch s n).srs = s.srs.set n { s.sr n with head := .empty, dispatched := true } := by
  rw [dispatchFormsContext s n h op head execute]

/-- A dispatch leaves one head fewer to execute. -/
theorem card_runSet_dispatch {s : State} {n : Fin 16} (h : s.best = some n) :
    (runSet (dispatch s n)).card < (runSet s).card := by
  obtain ⟨other, c, op, head, execute⟩ := head_of_best h
  have emptied (m : Fin 16) : (dispatch s n).sr m = if m = n then { s.sr n with head := .empty, dispatched := true }
      else s.sr m := by
    rw [State.sr, srs_dispatch head execute]
    exact vector_get_set _ n m _
  refine Finset.card_lt_card ⟨runSet_subset fun m run => ?_, fun all => ?_⟩
  · rw [emptied] at run
    split at run
    · cases run
    · exact run
  · have mem : n ∈ runSet s := (mem_runSet s n).mpr ⟨other, by simp [Head.runs, head, execute, Settlement.toExecute]⟩
    have run := ((mem_runSet _ n).mp (all mem)).2
    rw [emptied, if_pos rfl] at run
    cases run

theorem startOrMark_congr {f g : State → State} {s : State} (h : ∀ c, f (endActive s c .success s.time.tick) =
    g (endActive s c .success s.time.tick)) : startOrMark f s = startOrMark g s := by
  unfold startOrMark
  split
  · rw [h]
  · rfl

/-- Two amounts of fuel that both exceed the heads to execute decide alike. -/
theorem decisionC_fuel (j : Nat) : ∀ (k : Nat) (s : State), (runSet s).card < j → (runSet s).card < k →
    decisionC j s = decisionC k s := by
  induction j with
  | zero => exact fun k s few => absurd few (Nat.not_lt_zero _)
  | succ j ih =>
    intro k s few enough
    obtain ⟨k, rfl⟩ : ∃ i, k = i + 1 := ⟨k - 1, by omega⟩
    have deeper {n : Fin 16} (best : s.best = some n) :
        startOrMark (decisionC j) (dispatch s n) = startOrMark (decisionC k) (dispatch s n) := by
      refine startOrMark_congr fun c => ?_
      have ended := Finset.card_le_card (runSet_subset (runs_endActive (dispatch s n) c .success (dispatch s n).time.tick))
      have fewer := card_runSet_dispatch best
      exact ih k _ (by omega) (by omega)
    unfold decisionC
    split
    · rfl
    · rfl
    · next best _ => exact deeper best
    · next best _ =>
      split
      · exact deeper best
      · rfl

/-! ### The decisions (R59 to R68) -/

section Decisions

variable {s : State}

theorem decisionC_nothing (best : s.best = none) (stack : s.disp.stack = []) (k : Nat) : decisionC (k + 1) s = s := by
  simp only [decisionC, best, stack]

theorem decisionC_dispatches {n : Fin 16} (best : s.best = some n)
    (outranks : ∀ a ∈ s.disp.stack.head?, (s.sr n).level < a.level) (k : Nat) :
    decisionC (k + 1) s = startOrMark (decisionC k) (dispatch s n) := by
  cases stack : s.disp.stack with
  | nil => simp only [decisionC, best, stack]
  | cons a rest => simp only [decisionC, best, stack, outranks a (by simp [stack]), if_true]

theorem decisionC_resumes {a : Context} {rest : List Context} (stack : s.disp.stack = a :: rest)
    (outranked : ∀ n, s.best = some n → a.level ≤ (s.sr n).level) (k : Nat) : decisionC (k + 1) s = resumeTop s := by
  cases best : s.best with
  | none => simp only [decisionC, best, stack]
  | some n => simp only [decisionC, best, stack, if_neg (not_lt.mpr (outranked n best))]

theorem resumeTop_eq {a : Context} {rest : List Context} (stack : s.disp.stack = a :: rest) :
    resumeTop s = startSegment { s.moveWatch a.ring .suspended .active with
      disp := { s.disp with active := some a, stack := rest } } := by
  simp only [resumeTop, stack]

theorem startOrMark_segment {c : Context} (active : s.disp.active = some c) (segments : c.op ≠ .mark)
    (next : State → State) : startOrMark next s = startSegment s := by
  simp only [startOrMark, active, if_neg segments]

theorem startOrMark_mark {c : Context} (active : s.disp.active = some c) (mark : c.op = .mark) (next : State → State) :
    startOrMark next s = next (endActive s c .success s.time.tick) := by
  simp only [startOrMark, active, if_pos mark]

theorem afterEnd_running (running : s.ctl.engine = .running) : afterEnd s = decisionC markFuel s := by
  simp only [afterEnd, running]

theorem afterEnd_pausing (pausing : s.ctl.engine = .pausing) : afterEnd s = s.setEngine .paused := by
  simp only [afterEnd, pausing]

theorem afterEnd_else (running : s.ctl.engine ≠ .running) (pausing : s.ctl.engine ≠ .pausing) : afterEnd s = s := by
  unfold afterEnd
  split
  · next e => exact absurd e running
  · next e => exact absurd e pausing
  · rfl

variable {c : Context}

theorem decisionB_atomic (engine : s.ctl.engine = .running ∨ s.ctl.engine = .pausing)
    (atomic : c.fields.flags.noPreempt = true) : decisionB s c = startSegment s := by
  rcases engine with e | e <;> simp only [decisionB, e, atomic, if_true]

theorem decisionB_continues (running : s.ctl.engine = .running) (outranked : ∀ n, s.best = some n → c.level ≤ (s.sr n).level) :
    decisionB s c = startSegment s := by
  simp only [decisionB, running]
  split
  · rfl
  · split
    · next n best => rw [if_neg (not_lt.mpr (outranked n best))]
    · rfl

theorem decisionB_preempts {n : Fin 16} (running : s.ctl.engine = .running) (plain : c.fields.flags.noPreempt = false)
    (best : s.best = some n) (outranks : (s.sr n).level < c.level) :
    decisionB s c = startOrMark (decisionC markFuel) (dispatch (push s c) n) := by
  simp [decisionB, running, plain, best, outranks]

theorem decisionB_pauses (pausing : s.ctl.engine = .pausing) (plain : c.fields.flags.noPreempt = false) :
    decisionB s c = (push s c).setEngine .paused := by
  simp [decisionB, pausing, plain]

theorem decisionB_holds (halted : s.ctl.engine = .halted) :
    decisionB s c = { s with lane := { Lane.cleared with state := .held } } := by
  simp only [decisionB, halted]

end Decisions

theorem push_eq (s : State) (c : Context) :
    push s c = { s with
      disp := { s.disp with active := none, stack := { c with preempted := true } :: s.disp.stack }
      lane := Lane.cleared
      time := { s.time with watch := s.time.watch.map (fun e =>
        if e.ring = c.ring ∧ e.place = .active then { e with place := .suspended } else e) } } := by
  rw [push, State.moveWatch_eq]

/-- Settles O26. -/
theorem decisionsFollowTables : Obligations.DecisionsFollowTables := by
  refine ⟨fun s => ?_, fun s k => ?_, fun s k => ⟨fun best stack => decisionC_nothing best stack k,
      fun n best outranks => decisionC_dispatches best outranks k, fun a rest stack outranked => ?_⟩,
    fun s next c active => ⟨fun op => startOrMark_segment active op next, fun op => startOrMark_mark active op next⟩,
    fun s c st v => rfl, fun s => ⟨afterEnd_running, afterEnd_pausing, afterEnd_else⟩,
    fun s c => ⟨push s c, push_eq s c, decisionB_atomic, decisionB_continues, fun n => decisionB_preempts, fun pausing plain => ?_,
      decisionB_holds⟩⟩
  · simp only [decisionA, Bool.and_eq_true, decide_eq_true_eq, Option.isNone_iff_eq_none, Option.isSome_iff_ne_none,
      and_assoc]
  · exact decisionC_fuel _ _ s (Nat.lt_of_lt_of_le (card_runSet_lt s) (Nat.le_add_right _ _)) (card_runSet_lt s)
  · rw [decisionC_resumes stack outranked, resumeTop_eq stack, State.moveWatch_eq]
  · rw [decisionB_pauses pausing plain]
    rfl

/-! ### Expiries (R105 to R108) -/

theorem takesExpiry_iff (s : State) : s.takesExpiry = true ↔ decodes s := s.decodesNotify_iff

theorem expired_iff (s : State) (e : WatchEntry) :
    s.expired e = true ↔ e.budget ≤ (s.time.tick - e.admitted).toNat := by
  simp only [State.expired, decide_eq_true_eq]
  exact Iff.rfl

section Expiry

variable {s : State} {n : Fin 16} {p : Place} {e : WatchEntry}

theorem exec_deadlineExpiry_taken (watched : s.watchEntry n p = some e) (awake : decodes s)
    (due : e.budget ≤ (s.time.tick - e.admitted).toNat) :
    exec (.deadlineExpiry n p) s = .next (deliverExpiry (s.unwatch n p) n p) := by
  show execDeadlineExpiry n p s = _
  simp only [execDeadlineExpiry, watched, (takesExpiry_iff s).mpr awake, (expired_iff s e).mpr due, Bool.and_self, if_true]

theorem exec_deadlineExpiry_not (not : ¬ decodes s ∨
      ∀ e ∈ s.time.watch, e.ring = n → e.place = p → (s.time.tick - e.admitted).toNat < e.budget) :
    exec (.deadlineExpiry n p) s = .next s := by
  show execDeadlineExpiry n p s = _
  unfold execDeadlineExpiry
  split
  · next e watched =>
    rw [if_neg]
    rw [Bool.and_eq_true, takesExpiry_iff, expired_iff]
    rintro ⟨awake, due⟩
    have here := List.find?_some watched
    simp only [Bool.and_eq_true, decide_eq_true_eq] at here
    have early := not.resolve_left (fun asleep => asleep awake) e (List.mem_of_find?_eq_some watched) here.1 here.2
    omega
  · rfl

theorem expireHead_late {h : HeadCmd} {op : Opcode} (head : (s.sr n).head = .transfer h)
    (execute : h.settlement = .execute op) (stays : h.fields.flags.abortOnMiss = false) :
    expireHead s n = s.setSr n { s.sr n with head := .transfer { h with late := true } } := by
  simp [expireHead, head, execute, stays]

theorem expireHead_missed {h : HeadCmd} {op : Opcode} (head : (s.sr n).head = .transfer h)
    (execute : h.settlement = .execute op) (ends : h.fields.flags.abortOnMiss = true) :
    expireHead s n = settleRing (s.setSr n { s.sr n with
      head := .transfer { h with settlement := .settled .deadlineMissed 0 }
      link := if h.fields.flags.chain then .broken else (s.sr n).link }) n := by
  simp only [expireHead, head, execute, ends, if_true]

/-- A termination request is recorded on a context that carries none (R61). -/
theorem Context.requested_eq (c : Context) (q : TermRequest) :
    c.requested q = { c with request := if c.request = none then some q else c.request } := by
  unfold Context.requested
  cases c.request <;> rfl

theorem expireActive_eq {c : Context} (active : s.disp.active = some c) (ring : c.ring = n) :
    expireActive s n = { s with disp := { s.disp with active := some (if c.fields.flags.abortOnMiss = true then
      c.requested .deadlineMissed else { c with late := true }) } } := by
  simp only [expireActive, active, if_pos ring]

theorem expireSuspended_eq {c : Context} (suspended : s.disp.stack.find? (fun x => x.ring = n) = some c) :
    expireSuspended s n = if c.fields.flags.abortOnMiss = true then closeAbort (removeSuspended s c .deadlineMissed)
      else { s with disp := { s.disp with stack := markLate s.disp.stack n } } := by
  simp only [expireSuspended, suspended]

end Expiry

/-- Settles O39. -/
theorem expiryActsWhereHeld : Obligations.ExpiryActsWhereHeld := by
  refine ⟨fun s n p not => exec_deadlineExpiry_not not, fun s n e awake due =>
    ⟨fun h op watched head execute stays => ?_, fun c watched active ring stays => ?_,
      fun c watched suspended stays => ?_, fun h op watched head execute ends => ?_,
      fun c watched active ring ends => ?_, fun c watched suspended ends => ?_⟩⟩ <;>
    rw [exec_deadlineExpiry_taken watched awake due, deliverExpiry]
  · rw [expireHead_late (s := s.unwatch n .head) head execute stays]
    rfl
  · rw [expireActive_eq (s := s.unwatch n .active) active ring, if_neg (by simp [stays])]
    rfl
  · rw [expireSuspended_eq (s := s.unwatch n .suspended) suspended, if_neg (by simp [stays])]
    rfl
  · rw [expireHead_missed (s := s.unwatch n .head) head execute ends]
    rfl
  · rw [expireActive_eq (s := s.unwatch n .active) active ring, if_pos ends, Context.requested_eq]
    rfl
  · rw [expireSuspended_eq (s := s.unwatch n .suspended) suspended, if_pos ends, ← (find?_stack_ring suspended).2]
    rfl

end Sys2Proof.Machine
end

section
/-! PROOFS. The Transfer Lane: the longest run under one window (O28), the transactions of a segment (O22), the course
of a segment through its units (O23) and its boundary (O20). -/

open Sys2Proof.Claims

namespace Sys2Proof.Machine

-- One proof after the other: many at once use up the memory limit.
set_option Elab.async false

/-! ### Runs under one window (R95) -/

section Run

variable (ws : Vector Window 8) (g : Option (Fin 8))

theorem runLength_le (n : Nat) : ∀ a, runLength ws g n a ≤ n := by
  induction n with
  | zero => exact fun a => Nat.le_refl _
  | succ n ih =>
    intro a
    unfold runLength
    split
    · exact Nat.succ_le_succ (ih _)
    · exact Nat.zero_le _

theorem governing_of_lt_runLength (n : Nat) : ∀ a i, i < runLength ws g n a → governing ws (a + i) = g := by
  induction n with
  | zero => exact fun a i below => absurd below (Nat.not_lt_zero _)
  | succ n ih =>
    intro a i below
    unfold runLength at below
    split at below
    · next first =>
      cases i with
      | zero => exact first
      | succ i =>
        have later := ih (a + 1) i (Nat.lt_of_succ_lt_succ below)
        rwa [Nat.add_right_comm] at later
    · exact absurd below (Nat.not_lt_zero _)

theorem runLength_ends (n : Nat) : ∀ a, runLength ws g n a = n ∨ governing ws (a + runLength ws g n a) ≠ g := by
  induction n with
  | zero => exact fun a => .inl rfl
  | succ n ih =>
    intro a
    unfold runLength
    split
    · rcases ih (a + 1) with whole | ends
      · exact .inl (by rw [whole])
      · refine .inr ?_
        rwa [Nat.add_right_comm] at ends
    · next first => exact .inr first

end Run

/-- The least of a start value and the values of a list. -/
theorem foldl_min_spec {α : Type} (f : α → Nat) (l : List α) : ∀ m, l.foldl (fun n a => min n (f a)) m ≤ m ∧
    (∀ a ∈ l, l.foldl (fun n a => min n (f a)) m ≤ f a) ∧
    (l.foldl (fun n a => min n (f a)) m = m ∨ ∃ a ∈ l, l.foldl (fun n a => min n (f a)) m = f a) := by
  induction l with
  | nil => exact fun m => ⟨Nat.le_refl _, fun a mem => absurd mem List.not_mem_nil, .inl rfl⟩
  | cons b l ih =>
    intro m
    obtain ⟨le, least, attained⟩ := ih (min m (f b))
    simp only [List.foldl_cons, List.mem_cons, forall_eq_or_imp, exists_eq_or_imp]
    refine ⟨by omega, ⟨by omega, least⟩, ?_⟩
    rcases attained with start | ⟨a, mem, at_⟩
    · omega
    · exact .inr (.inr ⟨a, mem, at_⟩)

theorem mappedInputs_eq (c : Context) :
    c.mappedInputs = if c.fields.flags.noSubst = true ∨ c.op = .fill ∨ c.op = .mark then []
      else if c.op = .compare then [c.fields.source + c.bytesDone, c.fields.destination + c.bytesDone]
      else [position c c.fields.source c.fields.sourceStride] := by
  unfold Context.mappedInputs
  cases c.fields.flags.noSubst
  · cases op : c.op <;> simp [op, Context.sourceAddress, Context.destAddress, position]
  · simp

section Length

variable {ws : Vector Window 8} {size : Nat} {c : Context}

theorem segmentLength_le_limit : segmentLength ws size c ≤ min size c.remaining :=
  (foldl_min_spec _ _ _).1

/-- Every byte of a mapped input lies under the governing window of its first byte (R95). -/
theorem governing_of_lt_segmentLength {a i : Nat} (mapped : a ∈ c.mappedInputs) (below : i < segmentLength ws size c) :
    governing ws (a + i) = governing ws a :=
  governing_of_lt_runLength ws _ _ a i (Nat.lt_of_lt_of_le below ((foldl_min_spec _ _ _).2.1 a mapped))

theorem segmentLength_longest : segmentLength ws size c = min size c.remaining ∨
    ∃ a ∈ c.mappedInputs, governing ws (a + segmentLength ws size c) ≠ governing ws a := by
  rcases (foldl_min_spec (fun a => runLength ws (governing ws a) (min size c.remaining) a) c.mappedInputs
    (min size c.remaining)).2.2 with whole | ⟨a, mapped, run⟩
  · exact .inl whole
  · have length : segmentLength ws size c = _ := run
    rcases runLength_ends ws (governing ws a) (min size c.remaining) a with limit | ends
    · exact .inl (length.trans limit)
    · rw [← length] at ends
      exact .inr ⟨a, mapped, ends⟩

end Length

/-- Settles O28. -/
theorem segmentIsLongestRun : Obligations.SegmentIsLongestRun := by
  intro ws size c
  have limit := segmentLength_le_limit (ws := ws) (size := size) (c := c)
  refine ⟨rfl, mappedInputs_eq c, by omega, by omega, fun a mapped i => governing_of_lt_segmentLength mapped, ?_⟩
  rcases segmentLength_longest (ws := ws) (size := size) (c := c) with whole | ends
  · omega
  · exact .inr (.inr ends)

/-! ### The transactions of a segment (R73, R75, R93) -/

theorem mappingAt_congr {ws : Vector Window 8} {a b : Nat} (same : governing ws a = governing ws b) :
    mappingAt ws a = mappingAt ws b := by
  unfold mappingAt
  rw [same]

/-- Under one governing window the bytes of a unit lie one after the other from the unit's address on. -/
theorem mappingAt_address {ws : Vector Window 8} {a o : Nat} (same : governing ws (a + o) = governing ws a) :
    (mappingAt ws a).address (a + 64 * (o / 64)) + o % 64 = (mappingAt ws (a + o)).address (a + o) := by
  rw [mappingAt_congr same]
  cases governed : governing ws a with
  | none =>
    rw [mappingAt_of_ungoverned governed]
    simp only [Mapping.address_own]
    omega
  | some i =>
    obtain ⟨-, above, -⟩ := (Window.covers_iff _ _).mp (governing_eq_some_iff.mp governed).1
    rw [mappingAt_of_governed governed]
    simp only [Mapping.address_window]
    omega

theorem planSegment_map2 (ws : Vector Window 8) (size : Nat) (c : Context) :
    (planSegment ws size c).map2 = if c.op ≠ .compare ∨ c.fields.flags.noSubst = true then .own
      else mappingAt ws (c.fields.destination + c.bytesDone) := by
  unfold planSegment
  dsimp only
  by_cases op : c.op = .compare
  · cases c.fields.flags.noSubst <;> simp [op, Context.destAddress]
  · simp [op]

theorem readUnits_eq (op : Opcode) (length : Nat) :
    readUnits op length = match op with
      | .fill | .mark => []
      | .compare => (List.range ((length + 63) / 64)).flatMap (fun j => [⟨false, j, .waiting⟩, ⟨true, j, .waiting⟩])
      | _ => (List.range ((length + 63) / 64)).map (fun j => ⟨false, j, .waiting⟩) := by
  cases op <;> rfl

theorem writeUnits_eq (op : Opcode) (length : Nat) :
    writeUnits op length = match op with
      | .check | .compare | .mark => []
      | _ => (List.range ((length + 63) / 64)).map (fun j => ⟨false, j, .waiting⟩) := by
  cases op <;> rfl

section Transactions

variable {ws : Vector Window 8} {size : Nat} {c : Context}

/-- A byte of the first input is read where its own governing window puts it. -/
theorem readRequest_first {o : Nat} (below : o < segmentLength ws size c) (fill : c.op ≠ .fill) (mark : c.op ≠ .mark)
    (k : Nat) (st : UnitState) :
    (readRequest c (planSegment ws size c) k ⟨false, o / 64, st⟩).address + o % 64 =
      if c.fields.flags.noSubst then position c c.fields.source c.fields.sourceStride + o
      else (mappingAt ws (position c c.fields.source c.fields.sourceStride + o)).address
        (position c c.fields.source c.fields.sourceStride + o) := by
  have start : c.sourceAddress = position c c.fields.source c.fields.sourceStride := rfl
  simp only [readRequest, planSegment, Bool.false_eq_true, if_false, start]
  cases subst : c.fields.flags.noSubst
  · have mapped : position c c.fields.source c.fields.sourceStride ∈ c.mappedInputs := by
      rw [mappedInputs_eq, if_neg (by simp [subst, fill, mark])]
      split
      · next compare => simp [position, compare]
      · simp
    exact mappingAt_address (governing_of_lt_segmentLength mapped below)
  · show _ + 64 * (o / 64) + o % 64 = _
    rw [if_pos rfl]
    omega

/-- The same for the second input of a COMPARE. -/
theorem readRequest_second {o : Nat} (below : o < segmentLength ws size c) (compare : c.op = .compare) (k : Nat)
    (st : UnitState) :
    (readRequest c (planSegment ws size c) k ⟨true, o / 64, st⟩).address + o % 64 =
      if c.fields.flags.noSubst then c.fields.destination + c.bytesDone + o
      else (mappingAt ws (c.fields.destination + c.bytesDone + o)).address (c.fields.destination + c.bytesDone + o) := by
  have start : c.destAddress = c.fields.destination + c.bytesDone := by simp [Context.destAddress, compare]
  simp only [readRequest, if_true, planSegment_map2, start, compare, ne_eq, not_true, false_or]
  cases subst : c.fields.flags.noSubst
  · have mapped : c.fields.destination + c.bytesDone ∈ c.mappedInputs := by
      rw [mappedInputs_eq, if_neg (by simp [subst, compare]), if_pos compare]
      simp
    exact mappingAt_address (governing_of_lt_segmentLength mapped below)
  · show _ + 64 * (o / 64) + o % 64 = _
    rw [if_pos rfl]
    omega

end Transactions

/-- Settles O22. -/
theorem unitsMoveSegmentBytes : Obligations.UnitsMoveSegmentBytes := by
  rintro ws size c g rfl
  exact ⟨rfl, rfl, rfl, planSegment_map2 ws size c, fun a => rfl, readUnits_eq c.op _, writeUnits_eq c.op _,
    fun k j b st => ⟨rfl, rfl, rfl⟩, fun o k st below fill mark => readRequest_first below fill mark k st,
    fun o k st below compare => readRequest_second below compare k st, fun buffer k j st => rfl⟩

/-! ### The course of a segment (R72, R74, R75, R77) -/

theorem getElem?_setUnit (us : List TransferUnit) (st : UnitState) : ∀ k j : Nat,
    (setUnit us k st)[j]? = (us[j]?).map (fun u => if j = k then { u with state := st } else u) := by
  induction us with
  | nil => exact fun k j => rfl
  | cons u us ih =>
    intro k j
    cases k with
    | zero => cases j <;> simp [setUnit]
    | succ k =>
      cases j with
      | zero => simp [setUnit]
      | succ j => simp [setUnit, ih k j]

/-- The next unit is the first that waits. -/
theorem nextWaiting_of_first {us : List TransferUnit} : ∀ {k : Nat} {u : TransferUnit}, us[k]? = some u →
    u.state = .waiting → (∀ j < k, ∀ x, us[j]? = some x → x.state ≠ .waiting) → nextWaiting us = some (k, u) := by
  induction us with
  | nil => exact fun at_ => absurd at_ (by simp)
  | cons v us ih =>
    intro k u at_ waits earlier
    cases k with
    | zero =>
      cases at_
      simp [nextWaiting, waits]
    | succ k =>
      have rest : nextWaiting us = some (k, u) := ih (by simpa using at_) waits fun j below x atj =>
        earlier (j + 1) (Nat.succ_lt_succ below) x (by simpa using atj)
      simp [nextWaiting, earlier 0 (Nat.succ_pos k) v rfl, rest]

theorem nextWaiting_of_none {us : List TransferUnit} (h : ∀ u ∈ us, u.state ≠ .waiting) : nextWaiting us = none := by
  induction us with
  | nil => rfl
  | cons v us ih =>
    simp [nextWaiting, h v List.mem_cons_self, ih fun u mem => h u (List.mem_cons_of_mem v mem)]

theorem unitsAnswered_iff (us : List TransferUnit) :
    unitsAnswered us = true ↔ ∀ u ∈ us, u.state ≠ .presented ∧ u.state ≠ .granted := by
  simp only [unitsAnswered, List.all_eq_true, Bool.and_eq_true, decide_eq_true_eq]

theorem unitsAnswered_of_awaited {us : List TransferUnit} (h : ∃ u ∈ us, u.state = .presented ∨ u.state = .granted) :
    unitsAnswered us = false := by
  rw [← Bool.not_eq_true, unitsAnswered_iff]
  obtain ⟨u, mem, awaited⟩ := h
  exact fun all => awaited.elim (all u mem).1 (all u mem).2

section Course

variable {s : State} {c : Context} {g : Segment} (active : s.disp.active = some c) (segment : s.lane.segment = some g)

include active segment

theorem presentUnit_read {k : Nat} {u : TransferUnit} (clean : s.lane.fault = .none) (reading : s.lane.state = .reading)
    (next : nextWaiting g.reads = some (k, u)) :
    presentUnit s = { s with
      lane := { s.lane with segment := some { g with reads := setUnit g.reads k .presented } }
      port := { s.port with lane := some (readRequest c g k u) } } := by
  simp only [presentUnit, active, segment, reading, clean, next]

theorem presentUnit_write {k : Nat} {u : TransferUnit} (clean : s.lane.fault = .none) (writing : s.lane.state = .writing)
    (next : nextWaiting g.writes = some (k, u)) :
    presentUnit s = { s with
      lane := { s.lane with segment := some { g with writes := setUnit g.writes k .presented } }
      port := { s.port with lane := some (writeRequest c g s.lane.buffer1 k u) } } := by
  simp only [presentUnit, active, segment, writing, clean, next]

theorem presentUnit_nothing (h : s.lane.fault ≠ .none ∨ (s.lane.state = .reading ∧ ∀ u ∈ g.reads, u.state ≠ .waiting) ∨
    (s.lane.state = .writing ∧ ∀ u ∈ g.writes, u.state ≠ .waiting)) : presentUnit s = s := by
  rcases h with faulted | ⟨reading, all⟩ | ⟨writing, all⟩
  · unfold presentUnit
    split
    · next clean => exact absurd clean faulted
    · next clean => exact absurd clean faulted
    · rfl
  · cases clean : s.lane.fault <;> simp only [presentUnit, active, segment, reading, clean, nextWaiting_of_none all]
  · cases clean : s.lane.fault <;> simp only [presentUnit, active, segment, writing, clean, nextWaiting_of_none all]

theorem boundary_eq : boundary s = boundaryOf s c g := by
  simp only [boundary, active, segment]

theorem endReading_eq : endReading s = if unitsAnswered g.reads = true then
      (if s.lane.fault = .none ∧ g.writes ≠ [] then presentUnit { s with lane := { s.lane with state := .writing } }
        else boundaryOf s c g)
    else s := by
  simp only [endReading, segment, Bool.and_eq_true, decide_eq_true_eq, boundary_eq active segment]

theorem endWriting_eq : endWriting s = if unitsAnswered g.writes = true then boundaryOf s c g else s := by
  simp only [endWriting, segment, boundary_eq active segment]

end Course

/-- Settles O23. -/
theorem segmentRunsThroughItsUnits : Obligations.SegmentRunsThroughItsUnits := by
  refine ⟨fun s c active => ?_, fun s c g active segment =>
    ⟨fun k u clean reading at_ waits first => presentUnit_read active segment clean reading (nextWaiting_of_first at_ waits first),
      fun k u clean writing at_ waits first => presentUnit_write active segment clean writing (nextWaiting_of_first at_ waits first),
      presentUnit_nothing active segment, fun awaited => ?_, fun answered => ?_, fun awaited => ?_, fun answered => ?_⟩,
    fun us k st j => getElem?_setUnit us st k j⟩
  · simp only [startSegment, active]
    rfl
  · rw [endReading_eq active segment, unitsAnswered_of_awaited awaited, if_neg Bool.false_ne_true]
  · rw [endReading_eq active segment, if_pos ((unitsAnswered_iff _).mpr answered)]
  · rw [endWriting_eq active segment, unitsAnswered_of_awaited awaited, if_neg Bool.false_ne_true]
  · rw [endWriting_eq active segment, if_pos ((unitsAnswered_iff _).mpr answered)]

/-! ### The boundary (R36, R77 to R80) -/

/-- The first difference is the lowest offset at which both runs hold a byte and the two differ. -/
theorem firstDifference_eq_some_iff {xs : List Byte} : ∀ {ys : List Byte} {d : Nat}, firstDifference xs ys = some d ↔
    (∀ i < d, xs[i]? = ys[i]?) ∧ ∃ x y, xs[d]? = some x ∧ ys[d]? = some y ∧ x ≠ y := by
  induction xs with
  | nil => intro ys d; simp [firstDifference]
  | cons x xs ih =>
    intro ys d
    cases ys with
    | nil => simp [firstDifference]
    | cons y ys =>
      by_cases same : x = y
      · cases d with
        | zero => simp [firstDifference, same]
        | succ d =>
          simp only [firstDifference, same, if_true, Option.map_eq_some_iff, Nat.add_right_cancel_iff, exists_eq_right, ih,
            List.getElem?_cons_succ]
          refine and_congr_left fun _ => ⟨fun all i below => ?_, fun all i below => ?_⟩
          · cases i with
            | zero => rfl
            | succ i => simpa using all i (Nat.lt_of_succ_lt_succ below)
          · simpa using all (i + 1) (Nat.succ_lt_succ below)
      · cases d with
        | zero => simp [firstDifference, same]
        | succ d =>
          refine iff_of_false (by simp [firstDifference, same]) fun ⟨all, _⟩ => same ?_
          simpa using all 0 (Nat.succ_pos d)

theorem segmentDifference_iff {c : Context} (compare : c.op = .compare) (g : Segment) (l : Lane) (d : Nat) :
    segmentDifference c g l = some d ↔ d < g.length ∧ (∀ i < d, l.buffer1[i]? = l.buffer2[i]?) ∧
      ∃ x y, l.buffer1[d]? = some x ∧ l.buffer2[d]? = some y ∧ x ≠ y := by
  rw [segmentDifference, if_pos compare, firstDifference_eq_some_iff]
  have inside {b : List Byte} {i : Nat} (below : i < g.length) : (b.take g.length)[i]? = b[i]? :=
    List.getElem?_take_of_lt below
  by_cases below : d < g.length
  · simp only [inside below, below, true_and]
    refine and_congr_left fun _ => forall₂_congr fun i earlier => ?_
    rw [inside (Nat.lt_trans earlier below), inside (Nat.lt_trans earlier below)]
  · refine iff_of_false (fun ⟨_, x, y, at_, _⟩ => ?_) fun h => below h.1
    rw [List.getElem?_take_eq_none (Nat.not_lt.mp below)] at at_
    cases at_

theorem advance_eq (c : Context) (n : Nat) (bytes : List Byte) :
    c.advance n bytes = { c with
      crc := c.crc.map (fun x => crcRun x bytes)
      bytesDone := c.bytesDone + n
      row := if c.op = .copy2d ∧ c.rowOffset + n = c.fields.rowLength then c.row + 1 else c.row
      rowOffset := if c.op = .copy2d then
          (if c.rowOffset + n = c.fields.rowLength then 0 else c.rowOffset + n)
        else c.rowOffset } := by
  simp only [Context.advance, Bool.and_eq_true, decide_eq_true_eq]

/-- Table 4.5: a difference comes before full length, and full length before a request. -/
theorem cleanEnd_full {c : Context} (full : c.bytesDone = c.total) (g : Segment) :
    cleanEnd c g none = some (.success, c.successResult) := if_pos full

theorem cleanEnd_request {c : Context} (short : c.bytesDone ≠ c.total) {q : TermRequest} (request : c.request = some q)
    (g : Segment) : cleanEnd c g none = some (q.status, 0) := by
  simp only [cleanEnd, if_neg short, request]

theorem cleanEnd_none {c : Context} (short : c.bytesDone ≠ c.total) (request : c.request = none) (g : Segment) :
    cleanEnd c g none = none := by
  simp only [cleanEnd, if_neg short, request]

section Boundary

variable {s : State} {c : Context} {g : Segment}

/-- The context after the clean segment in the lane of `s`. -/
def afterSegment (s : State) (c : Context) (g : Segment) : Context :=
  c.advance g.length (s.lane.buffer1.take g.length)

theorem boundaryOf_ends (clean : s.lane.fault = .none) {st : Status} {v : Word32}
    (ends : cleanEnd (afterSegment s c g) g (segmentDifference c g s.lane) = some (st, v)) :
    boundaryOf s c g = afterEnd (endActive { s with disp := { s.disp with active := some (afterSegment s c g) } }
      (afterSegment s c g) st v) := by
  rw [afterSegment] at ends
  simp only [boundaryOf, clean, ends, afterSegment]

theorem boundaryOf_goesOn (clean : s.lane.fault = .none)
    (goes : cleanEnd (afterSegment s c g) g (segmentDifference c g s.lane) = none) :
    boundaryOf s c g = decisionB { s with disp := { s.disp with active := some (afterSegment s c g) } }
      (afterSegment s c g) := by
  rw [afterSegment] at goes
  simp only [boundaryOf, clean, goes, afterSegment]

/-- A segment does not change which operation it belongs to. -/
theorem segmentDifference_afterSegment (l : Lane) :
    segmentDifference (afterSegment s c g) g l = segmentDifference c g l := rfl

end Boundary

/-- Settles O20. -/
theorem boundaryOutcomes : Obligations.BoundaryOutcomes := by
  refine ⟨⟨rfl, rfl⟩, fun c g l => ⟨fun other => if_neg other, fun compare d => segmentDifference_iff compare g l d⟩,
    fun s c g => ⟨fun read => ?_, fun write => ?_, fun clean => ?_⟩⟩
  · simp only [boundaryOf, read]
  · simp only [boundaryOf, write]
  · refine ⟨afterSegment s c g, _, advance_eq c _ _, rfl, fun d difference => ?_, fun same full => ?_,
      fun same short q request => ?_, fun same short request => ?_⟩
    · refine boundaryOf_ends clean ?_
      rw [← segmentDifference_afterSegment, difference]
      rfl
    · refine boundaryOf_ends clean ?_
      rw [← segmentDifference_afterSegment, same, cleanEnd_full full]
      rfl
    · refine boundaryOf_ends clean ?_
      rw [← segmentDifference_afterSegment, same, cleanEnd_request short request]
    · refine boundaryOf_goesOn clean ?_
      rw [← segmentDifference_afterSegment, same, cleanEnd_none short request]

end Sys2Proof.Machine
end

section
/-! PROOFS. Validation at admission (O12): the fields of a transfer record, the checks of Table 2.4 one by one, and
the search for the first that fails. -/

open Sys2Proof.Claims

namespace Sys2Proof.Machine

-- One proof after the other: many at once use up the memory limit.
set_option Elab.async false

/-! ### The fields of a record (R172, Table 11.4) -/

theorem byteAt_lt (r : Line) (o : Nat) : byteAt r o < 256 := fieldAt_lt r o 1

theorem toNat_ofNat_fieldAt (r : Line) (o n w : Nat) (fits : 256 ^ n ≤ 2 ^ w) :
    (BitVec.ofNat w (fieldAt r o n)).toNat = fieldAt r o n := by
  rw [BitVec.toNat_ofNat, Nat.mod_eq_of_lt (Nat.lt_of_lt_of_le (fieldAt_lt r o n) fits)]

theorem byteAt_eq (r : Line) {o : Nat} (inside : o < 64) : byteAt r o = (r[o]).toNat := by
  have there : (r.toList.drop o).take 1 = [r[o]] := by
    rw [List.take_one_drop_eq_of_lt_length (by simpa using inside)]
    simp
  rw [byteAt, fieldAt, there]
  simp [leValue]

theorem pattern_eq (r : Line) :
    (decodeFields r).pattern.map (fun b => b.toNat) = (List.range 8).map (fun i => byteAt r (48 + i)) := by
  refine List.ext_getElem (by simp [decodeFields]) fun i h _ => ?_
  have below : i < 8 := by simpa [decodeFields] using h
  rw [List.getElem_map, List.getElem_map, List.getElem_range, byteAt_eq r (by omega)]
  simp [decodeFields]

theorem leValue_eq_zero_iff (l : List Byte) : leValue l = 0 ↔ ∀ b ∈ l, b = 0 := by
  induction l with
  | nil => simp [leValue]
  | cons b l ih =>
    have zero : b.toNat = 0 ↔ b = 0 := by rw [← BitVec.toNat_inj]; rfl
    simp only [leValue, Nat.add_eq_zero_iff, Nat.mul_eq_zero, ih, zero, List.mem_cons, forall_eq_or_imp]
    simp

theorem patternZero_iff (r : Line) : Fields.patternZero (decodeFields r) = true ↔ fieldAt r 48 8 = 0 := by
  rw [fieldAt, leValue_eq_zero_iff]
  simp only [Fields.patternZero, List.all_eq_true, decide_eq_true_eq]
  exact Iff.rfl

theorem opcodeOf_unlisted {b : Byte} (h : b = 0 ∨ 6 < b.toNat) : opcodeOf b = none := by
  unfold opcodeOf
  split <;> simp_all

/-! ### The checks of Table 2.4 -/

/-- The check of a reason fails, as `validate` computes it. -/
def checkFailed (r : Line) (continuation : Bool) (op : Opcode) : Reason → Bool
  | .unknownOpcode => false
  | .reservedSet => !(reservedClear r && mustBeZeroClear op (decodeFields r))
  | .flagCombination => !flagsCombine op (decodeFlags r)
  | .triggerOnContinuation => (decodeFlags r).trigWait && continuation
  | .zeroLength => !lengthNonzero op (decodeFields r)
  | .stride => op = .copy2d && (decodeFields r).destStride < (decodeFields r).rowLength
  | .addressRange => !addressesInRange op (decodeFields r)
  | .atomicTooLong => (decodeFlags r).noPreempt && Config.noPreemptLimit < totalLength op (decodeFields r)

/-- The reasons in the order of Table 2.4. -/
def reasonOrder : List Reason :=
  [.unknownOpcode, .reservedSet, .flagCombination, .triggerOnContinuation, .zeroLength, .stride, .addressRange,
    .atomicTooLong]

theorem mem_reasonOrder (why : Reason) : why ∈ reasonOrder := by
  cases why <;> decide

theorem reasonOrder_ascends : reasonOrder.Pairwise (fun a b => a.code < b.code) := by decide

/-- The outcome of a search for the first failing check. -/
def verdictOf (op : Opcode) : Option Reason → Verdict
  | some why => .invalid why
  | none => .execute op

theorem verdictOf_cons (op : Opcode) (fails : Reason → Bool) (why : Reason) (l : List Reason) :
    verdictOf op ((why :: l).find? fails) = if fails why then .invalid why else verdictOf op (l.find? fails) := by
  rw [List.find?_cons]
  cases fails why <;> rfl

theorem validate_eq {r : Line} {op : Opcode} (known : opcodeOf (decodeFields r).opcode = some op) (continuation : Bool) :
    validate r continuation = verdictOf op (reasonOrder.find? (checkFailed r continuation op)) := by
  simp only [validate, known, reasonOrder, verdictOf_cons]
  rfl

section Checks

variable {r : Line} {continuation : Bool} {op : Opcode}

theorem reservedSet_iff : checkFailed r continuation op .reservedSet = true ↔ checkFails r continuation op .reservedSet := by
  have reserved : reservedClear r = true ↔ fieldAt r 6 2 = 0 ∧ fieldAt r 11 1 = 0 ∧ fieldAt r 56 8 = 0 ∧
      byteAt r 1 < 8 ∧ fieldAt r 3 1 = 0 := by
    simp only [reservedClear, Bool.and_eq_true, decide_eq_true_eq, and_assoc]
    exact Iff.rfl
  have pattern := patternZero_iff r
  simp only [checkFailed, checkFails, Bool.not_eq_true', ← Bool.not_eq_true, Bool.and_eq_true, reserved]
  cases op <;>
    simp only [mustBeZeroClear, Bool.and_eq_true, decide_eq_true_eq, pattern, zeroPositions, List.cons_append,
      List.nil_append, List.mem_cons, List.not_mem_nil, or_false, exists_eq_or_imp, exists_eq_left] <;>
    simp only [decodeFields] <;> omega

theorem flagCombination_iff :
    checkFailed r continuation op .flagCombination = true ↔ checkFails r continuation op .flagCombination := by
  have flags : (decodeFields r).flags = decodeFlags r := rfl
  simp only [checkFailed, checkFails, flagsCombine, flags]
  cases op <;> cases (decodeFlags r).crc <;> cases (decodeFlags r).crcSeed <;> simp

theorem triggerOnContinuation_iff : checkFailed r continuation op .triggerOnContinuation = true ↔
    checkFails r continuation op .triggerOnContinuation := by
  simp only [checkFailed, checkFails, Bool.and_eq_true]
  exact Iff.rfl

theorem zeroLength_iff : checkFailed r continuation op .zeroLength = true ↔ checkFails r continuation op .zeroLength := by
  simp only [checkFailed, checkFails, Bool.not_eq_true']
  cases op <;> simp [lengthNonzero, imp_iff_not_or]

theorem stride_iff : checkFailed r continuation op .stride = true ↔ checkFails r continuation op .stride := by
  simp only [checkFailed, checkFails, Bool.and_eq_true, decide_eq_true_eq]

theorem inRange_iff (address extent : Nat) : inRange address (some extent) = true ↔ address + extent ≤ 2 ^ 48 := by
  simp only [inRange, decide_eq_true_eq]
  exact Iff.rfl

theorem addressRange_iff :
    checkFailed r continuation op .addressRange = true ↔ checkFails r continuation op .addressRange := by
  have none (address : Nat) : inRange address none = true := rfl
  simp only [checkFailed, checkFails, Bool.not_eq_true', ← Bool.not_eq_true, addressesInRange, Bool.and_eq_true]
  cases op <;>
    simp only [sourceExtent, destExtent, inRange_iff, none, areaExtent, true_and, and_true, not_true_eq_false] <;> omega

theorem atomicTooLong_iff :
    checkFailed r continuation op .atomicTooLong = true ↔ checkFails r continuation op .atomicTooLong := by
  simp only [checkFailed, checkFails, Bool.and_eq_true, decide_eq_true_eq]
  cases op <;> exact Iff.rfl

theorem checkFailed_iff (why : Reason) :
    checkFailed r continuation op why = true ↔ checkFails r continuation op why := by
  cases why with
  | unknownOpcode => exact iff_of_false Bool.false_ne_true id
  | reservedSet => exact reservedSet_iff
  | flagCombination => exact flagCombination_iff
  | triggerOnContinuation => exact triggerOnContinuation_iff
  | zeroLength => exact zeroLength_iff
  | stride => exact stride_iff
  | addressRange => exact addressRange_iff
  | atomicTooLong => exact atomicTooLong_iff

end Checks

theorem verdictOf_eq_invalid_iff (op : Opcode) (o : Option Reason) (why : Reason) :
    verdictOf op o = .invalid why ↔ o = some why := by
  cases o <;> simp [verdictOf]

theorem verdictOf_eq_execute_iff (op : Opcode) (o : Option Reason) : verdictOf op o = .execute op ↔ o = none := by
  cases o <;> simp [verdictOf]

/-- Settles O12. -/
theorem validationGivesFirstReason : Obligations.ValidationGivesFirstReason := by
  refine ⟨fun r o n => (littleEndian_eq _).symm, fun r => ⟨toNat_ofNat_fieldAt r 0 1 8 (by decide), rfl, rfl, rfl,
      toNat_ofNat_fieldAt r 4 2 16 (by decide), rfl, rfl, rfl, rfl, rfl, rfl, rfl, rfl,
      toNat_ofNat_fieldAt r 44 4 32 (by decide), pattern_eq r⟩,
    rfl, fun b h => opcodeOf_unlisted h, rfl, fun r continuation => ⟨fun unknown => ?_, fun op known =>
      ⟨fun why => ?_, ?_⟩⟩⟩
  · simp only [validate, unknown]
  · rw [validate_eq known, verdictOf_eq_invalid_iff, find?_eq_some_iff_least reasonOrder_ascends]
    simp only [mem_reasonOrder, true_and, forall_const, checkFailed_iff]
    exact and_congr_right fun _ => forall_congr' fun x => by rw [← not_lt, imp_not_comm]
  · rw [validate_eq known, verdictOf_eq_execute_iff, List.find?_eq_none]
    simp only [mem_reasonOrder, forall_const, checkFailed_iff]

end Sys2Proof.Machine
end

section
/-! PROOFS. The administrative commands: the checks of R138 (O43), completion rings (O44), submission rings (O45),
levels, pauses and resumes (O46), windows, triggers and engine parameters (O50). -/

open Sys2Proof.Claims

namespace Sys2Proof.Machine

-- One proof after the other: many at once use up the memory limit.
set_option Elab.async false

/-! ### The execution event of a command (R137) -/

theorem finishAdmin_completed (s : State) (st : Status) (v : Nat) : finishAdmin s st v = completed s st v := by
  rw [finishAdmin_eq, produce_eq]
  rfl

/-- On a ready engine a row runs the command that its record names, and the event may take decision (a). -/
theorem runsAs_of_runAdmin {s : State} {t : Transaction} {r : Line} {i : Instr} {op : Option AdminOp}
    {effect : State → State} (ready : s.adminReady t) (names : recordAdminOp r = op)
    (row : i ∈ [Instr.adminUnknown r, .createCr r, .deleteCr r, .createSr r, .deleteSr r, .setLevel r, .pauseSr r,
      .resumeSr r, .abortSr r, .resetSr r, .resetCr r, .setWindow r, .clearWindow r, .setTrigger r, .setEngine r,
      .query r, .identify r])
    (runs : runAdmin op r (s.adminTaken t r) = effect (s.adminTaken t r)) : runsAs i s t r effect := by
  rw [runsAs, ← runs, exec_administrative row, names]
  have taken := adminRow_ready s t op r (runAdmin op r) ready names
  rwa [adminRow_eq, names] at taken

/-- A record that passes the checks of R138 runs the body of its command. -/
theorem adminChecked_fits {op : AdminOp} {r : Line} {ranges : Bool} (plain : plainRecord op r) (fits : ranges = true)
    (s body : State) : adminChecked op r ranges s body = body := by
  rw [fits, adminChecked_pass op r s body plain.2]

/-! ### Operands (R138, Tables 9.1 and 11.10) -/

theorem vectorFits_iff (e : Bool) (a : Nat) : vectorFits e a = true ↔ (e = true → a % 4 = 0 ∧ a < 2 ^ 48) := by
  cases e
  · simp [vectorFits]
  · simp only [vectorFits, Bool.not_true, Bool.false_or, Bool.and_eq_true, decide_eq_true_eq, true_implies]
    exact Iff.rfl

theorem crIdFits_iff (r : Line) (o : Nat) : crIdFits r o = true ↔ 1 ≤ byteAt r o ∧ byteAt r o ≤ 7 := by
  simp only [crIdFits, Bool.and_eq_true, decide_eq_true_eq]

theorem srIdFits_iff (r : Line) : srIdFits r = true ↔ 1 ≤ byteAt r 12 ∧ byteAt r 12 ≤ 15 := by
  simp only [srIdFits, Bool.and_eq_true, decide_eq_true_eq]

theorem windowFits_iff (r : Line) : windowFits r = true ↔
    byteAt r 12 ≤ 7 ∧ (1 ≤ fieldAt r 32 8 ∧ fieldAt r 32 8 ≤ 2 ^ 32) ∧
    fieldAt r 16 8 + fieldAt r 32 8 ≤ 2 ^ 48 ∧ fieldAt r 24 8 + fieldAt r 32 8 ≤ 2 ^ 48 := by
  simp only [windowFits, Bool.and_eq_true, decide_eq_true_eq, and_assoc]
  exact Iff.rfl

theorem segmentSizeFits_iff (n : Nat) : segmentSizeFits n = true ↔ n ∈ [64, 128, 256, 512] := by
  simp only [segmentSizeFits, Bool.or_eq_true, decide_eq_true_eq, List.mem_cons, List.not_mem_nil, or_false, or_assoc]

theorem edgeSelectOf_code (e : EdgeSelect) : edgeSelectOf e.code = some e := by
  cases e <;> rfl

theorem edgeSelectOf_isSome_iff (k : Nat) : (edgeSelectOf k).isSome = true ↔ k ≤ 3 := by
  match k with
  | 0 | 1 | 2 | 3 => simp [edgeSelectOf]
  | k + 4 => simp [edgeSelectOf]

theorem queryIds_eq (k : Nat) : queryIds k = if k = 0 then 16 else if k = 4 then 1 else if k ≤ 4 then 8 else 0 := by
  match k with
  | 0 | 1 | 2 | 3 | 4 => rfl
  | k + 5 => simp [queryIds]

theorem queryIds_iff (k id : Nat) :
    id < queryIds k ↔ k ≤ 4 ∧ id < (if k = 0 then 16 else if k = 4 then 1 else 8) := by
  rw [queryIds_eq]
  split_ifs <;> omega

/-- The operands of a command lie in the ranges that it checks. -/
def operandsFit (op : AdminOp) (r : Line) : Bool :=
  match op with
  | .createCr => crIdFits r 12 && log2Fits (byteAt r 13) && 1 ≤ byteAt r 14 &&
      alignedFit (fieldAt r 16 8) (2 ^ byteAt r 13 * 16) && vectorFits (bitAt r 26 0) (fieldAt r 28 8)
  | .deleteCr | .resetCr => crIdFits r 12
  | .createSr => srIdFits r && log2Fits (byteAt r 13) && byteAt r 14 ≤ 7 && crIdFits r 15 &&
      alignedFit (fieldAt r 16 8) (2 ^ byteAt r 13 * 64)
  | .deleteSr | .abortSr | .resetSr => srIdFits r
  | .setLevel => srIdFits r && byteAt r 14 ≤ 7
  | .pauseSr | .resumeSr => true
  | .setWindow => windowFits r
  | .clearWindow => byteAt r 12 ≤ 7
  | .setTrigger => (edgeSelectOf (byteAt r 13)).isSome && (byteAt r 12 ≤ 7 && byteAt r 14 ≤ 15)
  | .setEngine => segmentSizeFits (fieldAt r 12 2) && vectorFits (bitAt r 18 0) (fieldAt r 20 8) &&
      vectorFits (bitAt r 18 1) (fieldAt r 32 8)
  | .query => byteAt r 13 < queryIds (byteAt r 12) && alignedFit (fieldAt r 16 8) 64
  | .identify => alignedFit (fieldAt r 16 8) 64

theorem operandsFit_iff (op : AdminOp) (r : Line) : operandsFit op r = true ↔ paramsFit op r := by
  cases op <;>
    simp only [operandsFit, paramsFit, Bool.and_eq_true, decide_eq_true_eq, crIdFits_iff, srIdFits_iff, log2Fits_iff,
      alignedFit_iff, vectorFits_iff, windowFits_iff, segmentSizeFits_iff, edgeSelectOf_isSome_iff, queryIds_iff,
      and_assoc] <;> tauto

/-- The second and third checks of R138 end a command BAD_FIELD, whichever it is. -/
theorem runAdmin_unfit {op : AdminOp} {r : Line} (h : unusedClear op r = false ∨ ¬ paramsFit op r) (s : State) :
    runAdmin (some op) r s = finishAdmin s .badField 0 := by
  have unfit : (unusedClear op r && operandsFit op r) = false := by
    rw [← operandsFit_iff, Bool.not_eq_true] at h
    rwa [Bool.and_eq_false_iff]
  have checked (body : State) : adminChecked op r (operandsFit op r) s body = finishAdmin s .badField 0 := by
    rw [adminChecked, unfit, if_neg Bool.false_ne_true]
  cases op with
  | setTrigger =>
    show runSetTrigger r s = _
    unfold runSetTrigger
    split
    · rfl
    · next edge =>
      rw [← checked, operandsFit, edge]
      rfl
  | _ => exact checked _

/-! ### Unused positions (R174) -/

theorem assignedBytes_eq (op : AdminOp) : assignedBytes op = (0, 1) :: (4, 2) :: parameterPositions op := by
  cases op <;> rfl

theorem coveredBy_assigned_iff (op : AdminOp) (i : Nat) : coveredBy (assignedBytes op) i = true ↔
    i = 0 ∨ i = 4 ∨ i = 5 ∨ ∃ p ∈ parameterPositions op, p.1 ≤ i ∧ i < p.1 + p.2 := by
  rw [assignedBytes_eq]
  simp only [coveredBy, List.any_cons, Bool.or_eq_true, List.any_eq_true, Bool.and_eq_true, decide_eq_true_eq,
    ← or_assoc]
  refine or_congr_left ?_
  omega

theorem fieldAt_two (r : Line) {o : Nat} (inside : o + 1 < 64) :
    fieldAt r o 2 = byteAt r o + 256 * byteAt r (o + 1) := by
  have bytes : (r.toList.drop o).take 2 = [r[o], r[o + 1]] := by
    rw [List.drop_eq_getElem_cons (by simp; omega), List.drop_eq_getElem_cons (by simp; omega)]
    simp
  rw [fieldAt, bytes, byteAt_eq r (by omega), byteAt_eq r inside]
  simp [leValue]

/-- Bit 0 of a bitmap stands for SR0, which no command may name. -/
theorem bitmap_clear_iff (r : Line) : (!bitAt r 12 0) = true ↔ byteAt r 12 % 2 = 0 := by
  rw [Bool.not_eq_true', bitAt, fieldAt_two r (by decide), Nat.testBit_zero, decide_eq_false_iff_not]
  omega

theorem unusedBitsClear_iff (op : AdminOp) (r : Line) : unusedBitsClear op r = true ↔
    (op = .createCr → byteAt r 26 < 2) ∧ (op = .createSr → byteAt r 24 < 2) ∧
    (op = .setWindow → byteAt r 13 < 4) ∧ (op = .setEngine → byteAt r 18 < 4) ∧
    (op = .pauseSr ∨ op = .resumeSr → byteAt r 12 % 2 = 0) := by
  cases op <;> simp [unusedBitsClear, ← bitmap_clear_iff]

theorem unusedClear_iff (op : AdminOp) (r : Line) : unusedClear op r = true ↔ unusedZero op r := by
  rw [unusedClear, Bool.and_eq_true, unusedBitsClear_iff]
  refine and_congr_left fun _ => ?_
  simp only [List.all_eq_true, List.mem_range, Bool.or_eq_true, coveredBy_assigned_iff, decide_eq_true_eq]
  exact forall₂_congr fun i _ => or_comm

/-! ### Opcodes and tags -/

theorem adminOpOf_code : ∀ b < 256, ∀ p ∈ ([(0x40, .createCr), (0x41, .deleteCr), (0x42, .createSr), (0x43, .deleteSr),
    (0x44, .setLevel), (0x45, .pauseSr), (0x46, .resumeSr), (0x47, .abortSr), (0x48, .resetSr), (0x49, .resetCr),
    (0x4A, .setWindow), (0x4B, .clearWindow), (0x4C, .setTrigger), (0x4D, .setEngine), (0x4E, .query),
    (0x4F, .identify)] : List (Nat × AdminOp)), adminOpOf (BitVec.ofNat 8 b) = some p.2 ↔ b = p.1 := by
  decide +kernel

theorem adminTag_eq {s : State} {r : Line} {a : Tick} (head : (s.sr 0).head = .admin r a) :
    s.adminTag.toNat = fieldAt r 4 2 := by
  simp only [State.adminTag, head]
  exact toNat_ofNat_fieldAt r 4 2 16 (by decide)

/-- Settles O43. -/
theorem adminChecksFirst : Obligations.AdminChecksFirst := by
  refine ⟨fun p listed r => adminOpOf_code _ (byteAt_lt r 0) p listed, unusedClear_iff, fun s r a => adminTag_eq,
    fun s t r ready => ⟨fun unknown => ?_, fun op names unfit => ?_⟩⟩
  · exact runsAs_of_runAdmin ready unknown (by simp) (finishAdmin_completed _ _ _)
  · refine runsAs_of_runAdmin ready names ?_ ?_
    · unfold adminCommand
      split <;> simp
    · rw [runAdmin_unfit unfit, finishAdmin_completed]

/-! ### Completion rings (R140, R141, R151) -/

/-- Settles O44. -/
theorem completionRingCommands : Obligations.CompletionRingCommands := by
  intro s t r n ready byte zero
  have id : crId r 12 = n := crId_eq r 12 n byte
  have fits : 1 ≤ byteAt r 12 ∧ byteAt r 12 ≤ 7 := by
    have := Fin.val_ne_of_ne zero
    have := n.isLt
    constructor <;> omega
  refine ⟨fun plain low high threshold aligned ends vector => runsAs_of_runAdmin ready plain.1 (by simp) ?_,
    fun plain => runsAs_of_runAdmin ready plain.1 (by simp) ?_,
    fun plain => runsAs_of_runAdmin ready plain.1 (by simp) ?_⟩
  · refine (adminChecked_fits plain ((operandsFit_iff .createCr r).mpr
      ⟨fits, ⟨low, high⟩, threshold, ⟨aligned, ends⟩, vector⟩) _ _).trans ?_
    simp only [id, finishAdmin_completed, ne_eq, ite_not]
    rfl
  · refine (adminChecked_fits plain ((operandsFit_iff .deleteCr r).mpr fits) _ _).trans ?_
    simp only [id, finishAdmin_completed, isBound_iff, deletedCr, CplRing.writing, Bool.or_assoc]
  · refine (adminChecked_fits plain ((operandsFit_iff .resetCr r).mpr fits) _ _).trans ?_
    simp only [id, finishAdmin_completed]
    rfl

/-! ### Submission rings (R142, R143, R150) -/

theorem setSr_self (s : State) (n : Fin 16) : s.setSr n (s.sr n) = s := by
  have same : s.srs.set n (s.sr n) = s.srs := by simp [State.sr, Vector.get_eq_getElem]
  rw [State.setSr, same]

theorem setSr_setSr (s : State) (n : Fin 16) (a b : SubRing) : (s.setSr n a).setSr n b = s.setSr n b := by
  simp only [State.setSr, Vector.set_set]

theorem quiet_iff (r : SubRing) : r.quiet = true ↔ (r.state = .paused ∨ r.state = .faulted) ∧ r.head = .empty ∧
    r.fetchInFlight = false ∧ r.dispatched = false := by
  simp only [SubRing.quiet, Bool.and_eq_true, Bool.or_eq_true, decide_eq_true_eq, Head.isEmpty_iff, Bool.not_eq_true',
    and_assoc]

/-- Without a chain and without a context of its own a ring takes its pending level, if there is one. -/
theorem applyPending_free {s : State} {n : Fin 16} (closed : (s.sr n).carry = .closed)
    (none : ∀ c ∈ s.disp.contexts, c.ring ≠ n) :
    applyPending s n = s.setSr n { s.sr n with
      level := (s.sr n).pendingLevel.getD (s.sr n).level, pendingLevel := .none } := by
  have free : s.chainInProgress n = false := by
    have context : s.contextOf n = .none := by
      unfold State.contextOf
      unfold Dispatcher.contexts at none
      split
      · next c active =>
        rw [if_neg (none c (by simp [active]))]
        exact List.find?_eq_none.mpr fun d mem => by simpa using none d (by simp [mem])
      · exact List.find?_eq_none.mpr fun d mem => by simpa using none d (by simp [mem])
    simp [State.chainInProgress, closed, ChainCarry.isOpen, context]
  cases pending : (s.sr n).pendingLevel with
  | none =>
    rw [applyPending_stays (.inl pending)]
    conv_lhs => rw [← setSr_self s n]
    congr 1
    rw [Option.getD_none]
    exact congrArg (fun l => { s.sr n with pendingLevel := l }) pending
  | some l => rw [applyPending_applies pending free, Option.getD_some]

theorem applyPending_setSr_free {s : State} {n : Fin 16} {r : SubRing} (closed : r.carry = .closed)
    (none : ∀ c ∈ s.disp.contexts, c.ring ≠ n) :
    applyPending (s.setSr n r) n = s.setSr n { r with level := r.pendingLevel.getD r.level, pendingLevel := .none } := by
  rw [applyPending_free (s := s.setSr n r) (by rw [State.sr_setSr_self, closed]) none, State.sr_setSr_self, setSr_setSr]

/-- Settles O45. -/
theorem submissionRingCommands : Obligations.SubmissionRingCommands := by
  intro s t r n ready byte zero
  have id : srId r = n := srId_eq r n byte
  have fits : 1 ≤ byteAt r 12 ∧ byteAt r 12 ≤ 15 := by
    have := Fin.val_ne_of_ne zero
    have := n.isLt
    constructor <;> omega
  refine ⟨fun l k plain low high level bound other aligned ends => runsAs_of_runAdmin ready plain.1 (by simp) ?_,
    fun plain => runsAs_of_runAdmin ready plain.1 (by simp) ?_,
    fun plain contexts => runsAs_of_runAdmin ready plain.1 (by simp) ?_⟩
  · have boundFits : 1 ≤ byteAt r 15 ∧ byteAt r 15 ≤ 7 := by
      have := Fin.val_ne_of_ne other
      have := k.isLt
      constructor <;> omega
    have levelFits : byteAt r 14 ≤ 7 := by omega
    have levelIs : finOf 8 (byteAt r 14) = l := by rw [level, finOf_val]
    refine (adminChecked_fits plain ((operandsFit_iff .createSr r).mpr
      ⟨fits, ⟨low, high⟩, levelFits, boundFits, aligned, ends⟩) _ _).trans ?_
    simp only [id, crId_eq r 15 k bound, finishAdmin_completed, createdSr, levelIs]
  · refine (adminChecked_fits plain ((operandsFit_iff .deleteSr r).mpr fits) _ _).trans ?_
    simp only [id, finishAdmin_completed, ← quiet_iff]
    simp only [Bool.not_eq_true', ← Bool.not_eq_true, ite_not]
  · refine (adminChecked_fits plain ((operandsFit_iff .resetSr r).mpr fits) _ _).trans ?_
    simp only [id, finishAdmin_completed, ← quiet_iff]
    simp only [Bool.not_eq_true', ← Bool.not_eq_true, ite_not]
    refine if_congr Iff.rfl rfl (ite_congr rfl (fun quiet => ?_) fun _ => rfl)
    have clear : (s.sr n).dispatched = false := by
      rw [State.adminTaken_sr s t r n zero] at quiet
      exact ((quiet_iff _).mp quiet).2.2.2
    rw [applyPending_setSr_free (s := s.adminTaken t r) rfl (contexts clear), State.sr_setSr_self, setSr_setSr]
    rfl

/-! ### Levels, pauses and resumes (R144, R145) -/

theorem transferSr_eq : transferSr = (List.finRange 16).filter (fun n => n ≠ 0) := by decide

theorem namedIn_eq (u : State) (r : Line) (st : SrState) :
    u.namedIn (fieldAt r 12 2) st = (List.finRange 16).filter (fun n => named r n = true ∧ (u.sr n).state = st) := by
  simp only [State.namedIn, namedRings, transferSr_eq, List.filter_filter]
  refine List.filter_congr fun n _ => ?_
  rw [Bool.eq_iff_iff]
  simp only [named, Bool.and_eq_true, decide_eq_true_eq]
  tauto

theorem mem_namedIn (u : State) (r : Line) (st : SrState) (n : Fin 16) :
    n ∈ u.namedIn (fieldAt r 12 2) st ↔ named r n = true ∧ (u.sr n).state = st := by
  simp only [namedIn_eq, List.mem_filter, List.mem_finRange, true_and, decide_eq_true_eq]

theorem namedIn_ne_nil_iff (u : State) (r : Line) (st : SrState) :
    u.namedIn (fieldAt r 12 2) st ≠ [] ↔ ∃ n, named r n = true ∧ (u.sr n).state = st := by
  simp only [← mem_namedIn]
  rw [ne_eq, List.eq_nil_iff_forall_not_mem, not_forall_not]

theorem bitmapOf_eq (ns : List (Fin 16)) : bitmapOf ns = (ns.map (fun n => 2 ^ n.val)).sum := by
  rw [List.sum_eq_foldl, List.foldl_map]
  rfl

/-- Every named ring in a state takes another, all at once. -/
theorem setStates_named (u : State) (r : Line) (old new : SrState) :
    setStates new u (u.namedIn (fieldAt r 12 2) old) = { u with srs := Vector.ofFn (fun n =>
      if named r n = true ∧ (u.sr n).state = old then { u.sr n with state := new } else u.sr n) } := by
  obtain ⟨rings, rest⟩ := setStates_sr new (u.namedIn (fieldAt r 12 2) old) u
  rw [rest]
  congr 1
  refine Vector.ext fun i below => ?_
  have ring := rings ⟨i, below⟩
  simp only [mem_namedIn] at ring
  rw [Vector.getElem_ofFn]
  exact ring

/-- PAUSE_SR and RESUME_SR have one body, of which the refused states and the two states differ. -/
theorem setNamed_eq (u : State) (r : Line) (refused : List SrState) (old new : SrState) {p : Prop} [Decidable p]
    (refuses : p ↔ ∃ n, named r n = true ∧ (u.sr n).state ∈ refused) :
    (if u.namedIn (fieldAt r 12 2) .absent ≠ [] then finishAdmin u .noRing 0
      else if p then finishAdmin u .wrongState 0
      else finishAdmin (setStates new u (u.namedIn (fieldAt r 12 2) old)) .ok
        (bitmapOf (u.namedIn (fieldAt r 12 2) old))) = setNamed u (named r) refused old new := by
  rw [setNamed]
  simp only [namedIn_ne_nil_iff, refuses, finishAdmin_completed, setStates_named, bitmapOf_eq]
  rw [namedIn_eq]

/-- Settles O46. -/
theorem levelPauseResumeCommands : Obligations.LevelPauseResumeCommands := by
  intro s t r ready
  refine ⟨fun n l plain byte zero level => runsAs_of_runAdmin ready plain.1 (by simp) ?_,
    fun plain => runsAs_of_runAdmin ready plain.1 (by simp) ?_,
    fun plain => runsAs_of_runAdmin ready plain.1 (by simp) ?_⟩
  · have fits : 1 ≤ byteAt r 12 ∧ byteAt r 12 ≤ 15 := by
      have := Fin.val_ne_of_ne zero
      have := n.isLt
      constructor <;> omega
    have levelIs : finOf 8 (byteAt r 14) = l := by rw [level, finOf_val]
    refine (adminChecked_fits plain ((operandsFit_iff .setLevel r).mpr ⟨fits, by omega⟩) _ _).trans ?_
    simp only [srId_eq r n byte, levelIs, finishAdmin_completed]
  · refine (adminChecked_fits plain rfl _ _).trans (setNamed_eq _ r _ _ _ ?_)
    simp only [namedIn_ne_nil_iff, List.mem_singleton]
  · refine (adminChecked_fits plain rfl _ _).trans (setNamed_eq _ r _ _ _ ?_)
    simp only [Bool.or_eq_true, decide_eq_true_eq, namedIn_ne_nil_iff, List.mem_cons, List.not_mem_nil, or_false,
      and_or_left, exists_or]

/-! ### Windows, triggers, engine parameters (R152 to R154) -/

theorem runSetTrigger_eq {r : Line} {e : EdgeSelect} (edge : byteAt r 13 = e.code) (s : State) :
    runSetTrigger r s = adminChecked .setTrigger r (byteAt r 12 ≤ 7 && byteAt r 14 ≤ 15) s
      (finishAdmin (s.setTrig (crId r 12) ((s.trig (crId r 12)).configured e (byteAt r 14))) .ok 0) := by
  simp only [runSetTrigger, edge, edgeSelectOf_code]

/-- Settles O50. -/
theorem configurationCommands : Obligations.ConfigurationCommands := by
  intro s t r ready
  refine ⟨fun i byte plain low high matches_ substitutes => runsAs_of_runAdmin ready plain.1 (by simp) ?_,
    fun i byte plain => runsAs_of_runAdmin ready plain.1 (by simp) ?_,
    fun plain => ⟨fun i e byte edge filter => runsAs_of_runAdmin ready plain.1 (by simp) ?_,
      fun out => runsAs_of_runAdmin ready plain.1 (by simp) ?_⟩,
    fun plain size fault cr0 => runsAs_of_runAdmin ready plain.1 (by simp) ?_⟩
  · refine (adminChecked_fits plain ((operandsFit_iff .setWindow r).mpr
      ⟨by omega, ⟨low, high⟩, matches_, substitutes⟩) _ _).trans ?_
    simp only [crId_eq r 12 i byte, finishAdmin_completed]
    rfl
  · refine (adminChecked_fits plain ((operandsFit_iff .clearWindow r).mpr (by show _ ≤ 7; omega)) _ _).trans ?_
    simp only [crId_eq r 12 i byte, finishAdmin_completed]
    rfl
  · show runSetTrigger r _ = _
    rw [runSetTrigger_eq edge, adminChecked_fits plain (by simp; omega), crId_eq r 12 i byte, finishAdmin_completed]
    rfl
  · rw [runAdmin_unfit (.inr fun fits => ?_), finishAdmin_completed]
    obtain ⟨line, edge, filter⟩ := fits
    omega
  · refine (adminChecked_fits plain ((operandsFit_iff .setEngine r).mpr ⟨size, fault, cr0⟩) _ _).trans ?_
    rw [finishAdmin_completed]
    rfl

end Sys2Proof.Machine
end

section
/-! PROOFS. ABORT_SR: its execution event (O47), its closing (O48), and both in one event for a quiet ring (O49). -/

open Sys2Proof.Claims

namespace Sys2Proof.Machine

-- One proof after the other: many at once use up the memory limit.
set_option Elab.async false

/-! ### The two closing points (R148, R149) -/

section Close

variable {s : State} {n : Fin 16}

theorem abortClose_idle (h : ∀ n e, s.admin ≠ .abortMarkers n e) : abortClose s = s := by
  unfold abortClose
  split
  · next n e admin => exact absurd admin (h n e)
  · rfl

theorem abortFinish_idle (h : ∀ n k, s.admin ≠ .abortRecords n k) : abortFinish s = s := by
  unfold abortFinish
  split
  · next n k admin => exact absurd admin (h n k)
  · rfl

theorem abortClose_waits {e : Bool} (admin : s.admin = .abortMarkers n e)
    (waits : s.works = false ∨ (s.sr n).fetchInFlight = true ∨ (s.sr n).dispatched = true) : abortClose s = s := by
  simp only [abortClose, admin]
  rw [if_neg]
  rcases waits with h | h | h <;> simp [h]

theorem closeAbort_waits {e : Bool} (admin : s.admin = .abortMarkers n e)
    (waits : s.works = false ∨ (s.sr n).fetchInFlight = true ∨ (s.sr n).dispatched = true) : closeAbort s = s := by
  rw [closeAbort, abortClose_waits admin waits]
  exact abortFinish_idle (by simp [admin])

/-- Steps 2 to 5 of R148, with no context of the ring left. -/
theorem abortRing_eq (none : ∀ c ∈ s.disp.contexts, c.ring ≠ n) (e : Bool) :
    abortRing s n e = s.setSr n { s.sr n with
      state := if e then .faulted else .paused
      consumer := (s.sr n).producer, link := .unlinked, carry := .closed
      level := (s.sr n).pendingLevel.getD (s.sr n).level, pendingLevel := .none } := by
  have pending := applyPending_setSr_free (s := s)
    (r := { s.sr n with consumer := (s.sr n).producer, link := .unlinked, carry := .closed }) rfl none
  simp only [abortRing, pending, State.sr_setSr_self, setSr_setSr]

theorem abortHead_disp (s : State) (n : Fin 16) : (abortHead s n).disp = s.disp := by
  unfold abortHead
  dsimp only
  split
  · split
    · rw [produce_eq]
      rfl
    · unfold drainHead
      dsimp only
      split
      · split
        · split
          · rw [produce_eq]
            rfl
          · rfl
        · rfl
      · rfl
  · rfl

theorem closeAbort_closes {e : Bool} (admin : s.admin = .abortMarkers n e) (works : s.works = true)
    (landed : (s.sr n).fetchInFlight = false) (clear : (s.sr n).dispatched = false)
    (none : ∀ c ∈ s.disp.contexts, c.ring ≠ n) :
    closeAbort s = abortFinish { (abortHead s n).setSr n { (abortHead s n).sr n with
        state := if e then .faulted else .paused
        consumer := ((abortHead s n).sr n).producer, link := .unlinked, carry := .closed
        level := ((abortHead s n).sr n).pendingLevel.getD ((abortHead s n).sr n).level, pendingLevel := .none } with
      admin := .abortRecords n ((abortHead s n).sr n).waiting } := by
  rw [closeAbort, ← abortRing_eq (s := abortHead s n) (by rwa [abortHead_disp])]
  simp only [abortClose, admin, works, landed, clear, Bool.not_false, Bool.and_self, if_true]

theorem abortHead_empty (head : (s.sr n).head = .empty) : abortHead s n = s := by
  simp only [abortHead, head]

theorem abortHead_settled {h : HeadCmd} {st : Status} {v : Word32} (head : (s.sr n).head = .transfer h)
    (settled : h.settlement = .settled st v) : abortHead s n = drainHead s n := by
  simp only [abortHead, head, settled]

theorem abortHead_execute {h : HeadCmd} {op : Opcode} (head : (s.sr n).head = .transfer h)
    (execute : h.settlement = .execute op) :
    abortHead s n = ((produce s (s.sr n).bound ⟨h.fields.tag, n, .aborted, (s.sr n).consumer, h.late, false, false,
      false, 0, 0, h.fields.flags.noIntr⟩).unwatch n .head).setSr n { s.sr n with head := .empty } := by
  simp [abortHead, head, execute, headRecord]

theorem abortFinish_completes {k : Nat} (admin : s.admin = .abortRecords n k) (works : s.works = true)
    (left : ∀ rec ∈ (s.cr (s.sr n).bound).outbound, rec.srId ≠ n) : abortFinish s = completed s .ok k := by
  have gone : (s.cr (s.sr n).bound).outbound.any (fun rec => rec.srId = n) = false := by simpa using left
  simp [abortFinish, admin, works, gone, finishAdmin_completed]

theorem abortFinish_waits {k : Nat} (admin : s.admin = .abortRecords n k)
    (waits : s.works = false ∨ ∃ rec ∈ (s.cr (s.sr n).bound).outbound, rec.srId = n) : abortFinish s = s := by
  simp only [abortFinish, admin]
  rw [if_neg]
  rcases waits with idle | held
  · simp [idle]
  · simpa using fun _ => held

end Close

/-- Settles O48. -/
theorem abortClosesOnClearMarkers : Obligations.AbortClosesOnClearMarkers := by
  refine ⟨fun s n e admin => ⟨closeAbort_waits admin, fun works landed clear none =>
      ⟨abortHead s n, closeAbort_closes admin works landed clear none, abortHead_empty,
        fun h st v head settled => abortHead_settled head settled, fun h op head execute => abortHead_execute head execute⟩⟩,
    fun s n k admin => ⟨abortFinish_completes admin, abortFinish_waits admin, ?_⟩,
    fun s idle => ⟨abortFinish_idle idle, fun unmarked => ?_⟩, fun s k rec => ⟨fun sound => ?_, fun faulted => ?_⟩⟩
  · rw [closeAbort, abortClose_idle (by simp [admin])]
  · rw [closeAbort, abortClose_idle unmarked, abortFinish_idle idle]
  · rw [produce_eq, CplRing.produced_eq, if_neg sound]
  · rw [produce_eq, CplRing.produced_eq, if_pos faulted]

/-! ### The execution event (R146) -/

theorem runAbortSr_eq {r : Line} {n : Fin 16} (plain : plainRecord .abortSr r) (byte : byteAt r 12 = n.val)
    (other : n ≠ 0) (s : State) :
    runAdmin (some .abortSr) r s = if (s.sr n).state = .absent then completed s .noRing 0
      else closeAbort (if (s.sr n).dispatched then abortDispatched (aborting s n) n else aborting s n) := by
  have fits : 1 ≤ byteAt r 12 ∧ byteAt r 12 ≤ 15 := by
    have := Fin.val_ne_of_ne other
    have := n.isLt
    constructor <;> omega
  refine (adminChecked_fits plain ((operandsFit_iff .abortSr r).mpr fits) _ _).trans ?_
  simp only [srId_eq r n byte, finishAdmin_completed]
  rfl

@[simp] theorem aborting_sr (s : State) (n : Fin 16) : (aborting s n).sr n = { s.sr n with state := .aborting } :=
  State.sr_setSr_self s n _

theorem abortDispatched_active {s : State} {n : Fin 16} {c : Context} (active : s.disp.active = some c)
    (ring : c.ring = n) :
    abortDispatched s n = { s with disp := { s.disp with active := some { c with
      request := if c.request = none then some .aborted else c.request } } } := by
  simp only [abortDispatched, active, if_pos ring, Context.requested_eq]

theorem abortDispatched_suspended {s : State} {n : Fin 16} {c : Context}
    (inactive : ∀ a, s.disp.active = some a → a.ring ≠ n)
    (suspended : s.disp.stack.find? (fun x => x.ring = n) = some c) :
    abortDispatched s n = endDispatched { s with
      disp := { s.disp with stack := s.disp.stack.filter (fun x => x.ring ≠ n) } } c .aborted 0 := by
  have ring := (find?_stack_ring suspended).2
  have removed : removeSuspended s c .aborted = endDispatched { s with
      disp := { s.disp with stack := s.disp.stack.filter (fun x => x.ring ≠ n) } } c .aborted 0 := by
    rw [removeSuspended, ring]
  cases active : s.disp.active with
  | none => simp only [abortDispatched, active, suspended, removed]
  | some a => simp only [abortDispatched, active, if_neg (inactive a active), suspended, removed]

/-- Settles O47. An active command keeps the dispatched marker, so the closing waits. -/
theorem abortStartsInItsEvent : Obligations.AbortStartsInItsEvent := by
  intro s t r n ready plain byte other
  have ring := State.adminTaken_sr s t r n other
  refine ⟨fun absent => ?_, fun present clear => ?_, fun c present dispatched active own => ?_,
    fun c present dispatched inactive suspended => ?_⟩ <;>
    refine runsAs_of_runAdmin ready plain.1 (by simp) ((runAbortSr_eq plain byte other _).trans ?_) <;> rw [ring]
  · rw [if_pos absent]
  · rw [if_neg present, clear, if_neg Bool.false_ne_true]
  · rw [if_neg present, if_pos dispatched, abortDispatched_active (s := aborting (s.adminTaken t r) n) active own]
    refine closeAbort_waits (n := n) rfl (.inr (.inr ?_))
    have marked : ((aborting (s.adminTaken t r) n).sr n).dispatched = true := by
      rw [aborting_sr, ring, dispatched]
    exact marked
  · rw [if_neg present, if_pos dispatched,
      abortDispatched_suspended (s := aborting (s.adminTaken t r) n) inactive suspended]
    rfl

/-! ### A quiet ring -/

/-- The Admin Unit's own state is not part of what a completion is made of. -/
theorem completed_admin (s : State) (a : AdminState) (st : Status) (v : Nat) :
    completed { s with admin := a } st v = completed s st v := rfl

theorem aborting_setSr (s : State) (n : Fin 16) (r : SubRing) : (aborting s n).setSr n r =
    { s.setSr n r with admin := .abortMarkers n (decide ((s.sr n).state = .faulted)) } := by
  rw [← setSr_setSr s n { s.sr n with state := .aborting } r]
  rfl

theorem closeAbort_quiet {s : State} {n : Fin 16} (works : s.works = true) (head : (s.sr n).head = .empty)
    (landed : (s.sr n).fetchInFlight = false) (clear : (s.sr n).dispatched = false)
    (none : ∀ c ∈ s.disp.contexts, c.ring ≠ n) (left : ∀ rec ∈ (s.cr (s.sr n).bound).outbound, rec.srId ≠ n) :
    closeAbort (aborting s n) = completed (s.setSr n { s.sr n with
        state := if (s.sr n).state = .faulted then .faulted else .paused
        consumer := (s.sr n).producer, link := .unlinked, carry := .closed
        level := (s.sr n).pendingLevel.getD (s.sr n).level, pendingLevel := .none }) .ok
      (apart (2 ^ (s.sr n).log2) (s.sr n).producer (s.sr n).consumer) := by
  have empty : abortHead (aborting s n) n = aborting s n := abortHead_empty (by rw [aborting_sr, head])
  rw [closeAbort_closes (s := aborting s n) rfl works (by rw [aborting_sr, landed]) (by rw [aborting_sr, clear]) none,
    empty]
  refine Eq.trans (abortFinish_completes (n := n) rfl works ?_) ?_
  · show ∀ rec ∈ ((aborting s n).cr (((aborting s n).setSr n _).sr n).bound).outbound, rec.srId ≠ n
    rw [State.sr_setSr_self, aborting_sr]
    exact left
  · rw [completed_admin, aborting_sr, aborting_setSr, completed_admin]
    simp only [decide_eq_true_eq]
    rfl

/-- Settles O49. -/
theorem abortOfQuietRingCloses : Obligations.AbortOfQuietRingCloses := by
  intro s t r n ready plain byte other present head landed clear none left
  have ring := State.adminTaken_sr s t r n other
  refine runsAs_of_runAdmin ready plain.1 (by simp) ((runAbortSr_eq plain byte other _).trans ?_)
  rw [ring, if_neg present, clear, if_neg Bool.false_ne_true, closeAbort_quiet (s := s.adminTaken t r) ready.2.1]
  · rw [ring]
  case none => exact none
  all_goals rw [ring]; assumption

end Sys2Proof.Machine
end

section
/-! PROOFS. QUERY and IDENTIFY: the result records, their write and its answer (O51). -/

open Sys2Proof.Claims

namespace Sys2Proof.Machine

-- One proof after the other: many at once use up the memory limit.
set_option Elab.async false

/-! ### Records made of fields (R175) -/

theorem holdsFields_layout {fs : List (Nat × Nat × Nat)} (rising : ascending 0 fs)
    (fits : ∀ p ∈ fs, p.1 + p.2.1 ≤ 64) : holdsFields (layout fs) fs :=
  ⟨layout_field fs rising fits, layout_rest fs rising fits⟩

theorem holdsFields_header (kind id : Nat) : holdsFields (layout [(0, 1, kind), (1, 1, id)]) [(0, 1, kind), (1, 1, id)] :=
  holdsFields_layout (by simp [ascending]) (by simp)

/-! ### Rings, windows and lines (Table 11.11) -/

theorem querySr_eq (s : State) (n : Fin 16) : querySr s n = layout (srFields s n) := by
  unfold querySr srFields queryLayout
  by_cases absent : (s.sr n).state = .absent
  · simp only [absent, if_true, List.append_nil]
  · simp only [absent, if_false, List.cons_append, List.nil_append]
    refine congrArg layout ?_
    simp only [List.cons.injEq, Prod.mk.injEq, true_and, and_true, mul_bit]
    refine ⟨?pending, ?code, ?status, ?trigger, ?tag, ?late, rfl, ?carry, ?crc⟩
    case pending => cases (s.sr n).pendingLevel <;> rfl
    case tag =>
      cases (s.sr n).head with
      | admin r a => exact toNat_ofNat_fieldAt r 4 2 16 (by decide)
      | _ => rfl
    case carry => cases (s.sr n).carry with
      | closed => rfl
      | opened crc => cases crc <;> rfl
    case crc => cases (s.sr n).carry with
      | closed => rfl
      | opened crc => cases crc <;> rfl
    case trigger =>
      cases (s.sr n).head with
      | transfer h => exact congrArg (· + h.fields.line.val) (mul_bit 128 _)
      | _ => rfl
    all_goals
      cases (s.sr n).head with
      | transfer h =>
        obtain ⟨fields, continuation, admitted, settlement, late⟩ := h
        cases settlement <;> rfl
      | _ => rfl

theorem holdsFields_sr (s : State) (n : Fin 16) : holdsFields (querySr s n) (srFields s n) := by
  rw [querySr_eq]
  by_cases absent : (s.sr n).state = .absent
  · simpa only [srFields, absent, if_true, List.append_nil] using holdsFields_header 0 n.val
  · simp only [srFields, absent, if_false, List.cons_append, List.nil_append]
    exact holdsFields_layout (by simp [ascending]) (by simp)

theorem queryCr_eq (s : State) (n : Fin 8) : queryCr s n = layout (crFields s n) := by
  unfold queryCr crFields queryLayout
  by_cases absent : (s.cr n).state = .absent
  · simp only [absent, if_true, List.append_nil]
  · simp only [absent, if_false, List.cons_append, List.nil_append]
    refine congrArg layout ?_
    simp only [List.cons.injEq, Prod.mk.injEq, true_and, and_true, mul_bit]
    refine ⟨rfl, rfl, rfl, ?timer, ?message, ?start⟩
    case message => cases (s.cr n).message <;> rfl
    all_goals cases (s.cr n).timer <;> rfl

theorem holdsFields_cr (s : State) (n : Fin 8) : holdsFields (queryCr s n) (crFields s n) := by
  rw [queryCr_eq]
  by_cases absent : (s.cr n).state = .absent
  · simpa only [crFields, absent, if_true, List.append_nil] using holdsFields_header 1 n.val
  · simp only [crFields, absent, if_false, List.cons_append, List.nil_append]
    exact holdsFields_layout (by simp [ascending]) (by simp)

theorem holdsFields_window (s : State) (i : Fin 8) : holdsFields (queryWindow s i) (windowFields s i) := by
  have same : queryWindow s i = layout (windowFields s i) := by
    simp only [queryWindow, windowFields, queryLayout, mul_bit]
    rfl
  rw [same]
  exact holdsFields_layout (by simp [windowFields, ascending]) (by simp [windowFields])

theorem holdsFields_trigger (s : State) (i : Fin 8) : holdsFields (queryTrigger s i) (triggerFields s i) :=
  holdsFields_layout (fs := triggerFields s i) (by simp [triggerFields, ascending]) (by simp [triggerFields])

/-! ### The engine and its stack -/

/-- At most one context is held per level. -/
theorem StackInv.stack_length {s : State} (ordered : s.StackInv) : s.disp.stack.length ≤ 8 := by
  have distinct : s.disp.levels.Nodup := ordered.imp ne_of_lt
  have held : s.disp.levels.length ≤ 8 := distinct.length_le_card.trans_eq (Fintype.card_fin 8)
  simp only [Dispatcher.levels, List.length_map, List.length_append] at held
  omega

theorem ascending_mono {a b : Nat} (le : a ≤ b) : ∀ {fs : List (Nat × Nat × Nat)}, ascending b fs → ascending a fs
  | [], _ => trivial
  | _ :: _, ⟨first, rest⟩ => ⟨le.trans first, rest⟩

theorem ascending_stack {rest : List (Nat × Nat × Nat)} (after : ascending 36 rest) (held : List Context) (k : Nat)
    (fits : k + held.length ≤ 8) :
    ascending (28 + k) ((held.zipIdx k).map (fun p => (28 + p.2, 1, p.1.ring.val)) ++ rest) := by
  induction held generalizing k with
  | nil => exact ascending_mono (by simp at fits; omega) after
  | cons c held ih => exact ⟨le_rfl, ih (k + 1) (by simp at fits; omega)⟩

theorem stack_fits {held : List Context} (fits : held.length ≤ 8) :
    ∀ p ∈ held.zipIdx.map (fun p => (28 + p.2, 1, p.1.ring.val)), p.1 + p.2.1 ≤ 64 := by
  intro p mem
  obtain ⟨⟨c, i⟩, listed, rfl⟩ := List.mem_map.mp mem
  have := List.snd_lt_of_mem_zipIdx listed
  show 28 + i + 1 ≤ 64
  omega

theorem queryEngine_eq (s : State) : queryEngine s = layout (engineFields s) := by
  have busy : bit s.adminBusy = if s.admin = .idle then 0 else 1 := by
    by_cases idle : s.admin = .idle <;> simp [State.adminBusy, bit, idle]
  unfold queryEngine engineFields queryLayout stackFields
  simp only [mul_bit, busy]
  cases s.disp.active <;> rfl

theorem holdsFields_engine {s : State} (ordered : s.StackInv) : holdsFields (queryEngine s) (engineFields s) := by
  have few : s.disp.stack.reverse.length ≤ 8 := by
    rw [List.length_reverse]
    exact StackInv.stack_length ordered
  rw [queryEngine_eq]
  refine holdsFields_layout ?_ ?_
  · simp only [engineFields, List.cons_append, List.nil_append, ascending]
    have stack := ascending_stack (rest := [(36, 8, s.ctl.faultVector.address.toNat), (44, 4, s.ctl.faultVector.data.toNat),
      (48, 8, s.ctl.crVector.address.toNat), (56, 4, s.ctl.crVector.data.toNat)]) (by simp [ascending]) _ 0
        (by rwa [Nat.zero_add])
    simpa using stack
  · simp only [engineFields, List.forall_mem_append]
    exact ⟨⟨by simp, stack_fits few⟩, by simp⟩

/-! ### The place of a ring's dispatched command -/

theorem dispatchedPlace_active {s : State} {n : Fin 16} {c : Context} (active : s.disp.active = some c)
    (own : c.ring = n) : s.dispatchedPlace n = (1, 0) := by
  simp [State.dispatchedPlace, active, own]

theorem dispatchedPlace_inactive {s : State} {n : Fin 16} (inactive : ∀ c, s.disp.active = some c → c.ring ≠ n) :
    s.dispatchedPlace n = ((s.disp.stack.reverse.findIdx? (fun c => c.ring = n)).map (fun i => (2, i))).getD (0, 0) := by
  have other : s.disp.active.any (fun c => c.ring = n) = false := by
    cases active : s.disp.active with
    | none => rfl
    | some c => simpa using inactive c active
  rw [State.dispatchedPlace, other, if_neg Bool.false_ne_true]
  cases s.disp.stack.reverse.findIdx? (fun c => c.ring = n) <;> rfl

theorem dispatchedPlace_stack {s : State} {n : Fin 16} {c : Context} {i : Nat}
    (distinct : (s.disp.contexts.map (fun x => x.ring)).Nodup) (entry : s.disp.stack.reverse[i]? = some c)
    (own : c.ring = n) : s.dispatchedPlace n = (2, i) := by
  rw [Dispatcher.contexts, List.map_append, List.nodup_append'] at distinct
  obtain ⟨-, stack, apart⟩ := distinct
  obtain ⟨below, here⟩ := List.getElem?_eq_some_iff.mp entry
  have held : c ∈ s.disp.stack := List.mem_reverse.mp (List.mem_of_getElem? entry)
  have inactive (a : Context) (active : s.disp.active = some a) : a.ring ≠ n := fun same =>
    apart (a := n) (by simp [active, same]) (List.mem_map.mpr ⟨c, held, own⟩)
  have found : s.disp.stack.reverse.findIdx? (fun c => c.ring = n) = some i := by
    refine List.findIdx?_eq_some_iff_getElem.mpr ⟨below, by simp [here, own], fun j before => ?_⟩
    have rings : (s.disp.stack.reverse.map (fun x => x.ring)).Nodup := by
      rw [List.map_reverse]
      exact List.nodup_reverse.mpr stack
    have differ : s.disp.stack.reverse[j].ring ≠ n := fun same => by
      have equal := rings.getElem_inj_iff (i := j) (j := i) (hi := by simp at below ⊢; omega) (hj := by simpa using below)
      simp only [List.getElem_map, here, same, own, true_iff] at equal
      omega
    simpa using differ
  rw [dispatchedPlace_inactive inactive, found]
  rfl

theorem dispatchedPlace_none {s : State} {n : Fin 16} (none : ∀ c ∈ s.disp.contexts, c.ring ≠ n) :
    s.dispatchedPlace n = (0, 0) := by
  have absent : s.disp.stack.reverse.findIdx? (fun c => c.ring = n) = .none :=
    List.findIdx?_eq_none_iff.mpr fun c held => by
      simpa using none c (List.mem_append_right _ (List.mem_reverse.mp held))
  rw [dispatchedPlace_inactive fun c active => none c (by simp [Dispatcher.contexts, active]), absent]
  rfl

/-! ### The result write -/

theorem resultAnswered_works {s : State} {r : Line} {a : Nat} {w : Option Bool} (waits : s.admin = .resultWrite r a w)
    (works : s.works = true) (ok : Bool) :
    resultAnswered s ok = completed s (if ok then .ok else .bufferFault) 0 := by
  simp only [resultAnswered, waits, works, if_true, finishAdmin_completed]

theorem resultAnswered_halted {s : State} {r : Line} {a : Nat} {w : Option Bool} (waits : s.admin = .resultWrite r a w)
    (works : s.works = false) (ok : Bool) :
    resultAnswered s ok = { s with admin := .resultWrite r a (some ok) } := by
  simp only [resultAnswered, waits, works, Bool.false_eq_true, if_false]

/-- Settles O51. -/
theorem queryAndIdentifyWriteRecords : Obligations.QueryAndIdentifyWriteRecords := by
  refine ⟨⟨rfl, rfl, rfl, rfl⟩, fun s t r ready aligned ends =>
    ⟨fun plain kind id => runsAs_of_runAdmin ready plain.1 (by simp) ?_,
      fun plain => runsAs_of_runAdmin ready plain.1 (by simp) ?_⟩,
    fun s => ⟨fun n => ?_, fun k => ⟨?_, ?_, ?_⟩, holdsFields_engine, fun n c => dispatchedPlace_active,
      fun n c i => dispatchedPlace_stack, fun n => dispatchedPlace_none⟩,
    holdsFields_layout (fs := capabilityFields) (by simp [capabilityFields, ascending]) (by simp [capabilityFields]),
    fun s t ok r a w awaited kind waits => ⟨fun works => ?_, fun halted => ?_⟩⟩
  · exact adminChecked_fits plain ((operandsFit_iff .query r).mpr ⟨⟨aligned, ends⟩, kind, id⟩) _ _
  · exact adminChecked_fits plain ((operandsFit_iff .identify r).mpr ⟨aligned, ends⟩) _ _
  · rw [queryRecord, finOf_val]
    exact holdsFields_sr s n
  · rw [queryRecord, finOf_val]
    exact holdsFields_cr s k
  · rw [queryRecord, finOf_val]
    exact holdsFields_window s k
  · rw [queryRecord, finOf_val]
    exact holdsFields_trigger s k
  · have working : s.ctl.engine ≠ .resetting := fun resetting => by simp [State.works, resetting] at works
    rw [exec_resultWriteAnswer awaited kind, answered_working working]
    exact congrArg Host.Outcome.next (resultAnswered_works (s := s.retire t.id) waits works ok)
  · rw [exec_resultWriteAnswer awaited kind, answered_working (by rw [halted]; decide)]
    exact congrArg Host.Outcome.next (resultAnswered_halted (s := s.retire t.id) waits
      (by show s.works = false; simp [State.works, halted]) ok)

end Sys2Proof.Machine
end
